-- ==== Sys2Proof/Word.lean ====
section
/-! DEFINITION. The word types of the UNIVAC 494: 30-bit words, 60-bit double words, 15-bit half-words and 17-bit absolute
addresses (00_scope.md R7, 20_memory.md R80 and R81). -/

namespace Sys2Proof

/-- A storage word or an arithmetic register, bits 29..0 (00_scope.md R7). -/
abbrev Word := BitVec 30

/-- AQ, or two successive storage words, bits 59..0 (10_state.md R22). -/
abbrev DWord := BitVec 60

/-- Half of a word (00_scope.md R7). -/
abbrev Half := BitVec 15

/-- An absolute storage address, or a relative address of up to 17 bits (20_memory.md R81). -/
abbrev Addr := BitVec 17

end Sys2Proof
end

