-- ==== Sys2Proof/Syntax.lean ====
section
/-! DEFINITION. The instructions of the UNIVAC 494: one constructor per row of spec/opcode_table.json, with the fields of its
format (30_encoding.md R141 to R143): normal words `j k b y`, I/O words `jh kh b y`, 77 words `b y`. -/

namespace Sys2Proof

/-- An instruction (30_encoding.md R180, R181; the codes are octal). -/
inductive Instr where
  /-- 00: (illegal: function code 00) (30_encoding.md R170). -/
  | illegal00 (j k b : BitVec 3) (y : BitVec 15)
  /-- 01: Right Shift Q (40_shift.md R201). -/
  | rightShiftQ (j k b : BitVec 3) (y : BitVec 15)
  /-- 02: Right Shift A (40_shift.md R202). -/
  | rightShiftA (j k b : BitVec 3) (y : BitVec 15)
  /-- 03: Right Shift AQ (40_shift.md R203). -/
  | rightShiftAq (j k b : BitVec 3) (y : BitVec 15)
  /-- 04: Compare (46_comparison.md R382). -/
  | compare (j k b : BitVec 3) (y : BitVec 15)
  /-- 05: Left Shift Q (40_shift.md R204). -/
  | leftShiftQ (j k b : BitVec 3) (y : BitVec 15)
  /-- 06: Left Shift A (40_shift.md R205). -/
  | leftShiftA (j k b : BitVec 3) (y : BitVec 15)
  /-- 07: Left Shift AQ (40_shift.md R206). -/
  | leftShiftAq (j k b : BitVec 3) (y : BitVec 15)
  /-- 10: Enter Q (41_transfer.md R221). -/
  | enterQ (j k b : BitVec 3) (y : BitVec 15)
  /-- 11: Enter A (41_transfer.md R222). -/
  | enterA (j k b : BitVec 3) (y : BitVec 15)
  /-- 12: Enter B_j (41_transfer.md R223). -/
  | enterB (j k b : BitVec 3) (y : BitVec 15)
  /-- 13: Send External Function (49_io.md R461). -/
  | sendExternalFunction (jh : BitVec 4) (kh : BitVec 2) (b : BitVec 3) (y : BitVec 15)
  /-- 14: Store Q (41_transfer.md R225). -/
  | storeQ (j k b : BitVec 3) (y : BitVec 15)
  /-- 15: Store A (41_transfer.md R226). -/
  | storeA (j k b : BitVec 3) (y : BitVec 15)
  /-- 16: Store B_j (41_transfer.md R227). -/
  | storeB (j k b : BitVec 3) (y : BitVec 15)
  /-- 17: Store Channel (49_io.md R462). -/
  | storeChannel (jh : BitVec 4) (kh : BitVec 2) (b : BitVec 3) (y : BitVec 15)
  /-- 20: Add A (42_arith_integer.md R266). -/
  | addA (j k b : BitVec 3) (y : BitVec 15)
  /-- 21: Subtract A (42_arith_integer.md R267). -/
  | subtractA (j k b : BitVec 3) (y : BitVec 15)
  /-- 22: Multiply (42_arith_integer.md R268). -/
  | multiply (j k b : BitVec 3) (y : BitVec 15)
  /-- 23: Divide (42_arith_integer.md R270). -/
  | divide (j k b : BitVec 3) (y : BitVec 15)
  /-- 24: Replace A + Y (42_arith_integer.md R277). -/
  | replaceAPlusY (j k b : BitVec 3) (y : BitVec 15)
  /-- 25: Replace A − Y (42_arith_integer.md R278). -/
  | replaceAMinusY (j k b : BitVec 3) (y : BitVec 15)
  /-- 26: Add Q (42_arith_integer.md R279). -/
  | addQ (j k b : BitVec 3) (y : BitVec 15)
  /-- 27: Subtract Q (42_arith_integer.md R280). -/
  | subtractQ (j k b : BitVec 3) (y : BitVec 15)
  /-- 30: Enter Y + Q (42_arith_integer.md R281). -/
  | enterYPlusQ (j k b : BitVec 3) (y : BitVec 15)
  /-- 31: Enter Y − Q (42_arith_integer.md R282). -/
  | enterYMinusQ (j k b : BitVec 3) (y : BitVec 15)
  /-- 32: Store A + Q (42_arith_integer.md R283). -/
  | storeAPlusQ (j k b : BitVec 3) (y : BitVec 15)
  /-- 33: Store A − Q (42_arith_integer.md R284). -/
  | storeAMinusQ (j k b : BitVec 3) (y : BitVec 15)
  /-- 34: Replace Y + Q (42_arith_integer.md R285). -/
  | replaceYPlusQ (j k b : BitVec 3) (y : BitVec 15)
  /-- 35: Replace Y − Q (42_arith_integer.md R286). -/
  | replaceYMinusQ (j k b : BitVec 3) (y : BitVec 15)
  /-- 36: Replace Y + 1 (42_arith_integer.md R287). -/
  | replaceYPlus1 (j k b : BitVec 3) (y : BitVec 15)
  /-- 37: Replace Y − 1 (42_arith_integer.md R288). -/
  | replaceYMinus1 (j k b : BitVec 3) (y : BitVec 15)
  /-- 40: Enter Logical Product (45_logical.md R351). -/
  | enterLp (j k b : BitVec 3) (y : BitVec 15)
  /-- 41: Add Logical Product (45_logical.md R352). -/
  | addLp (j k b : BitVec 3) (y : BitVec 15)
  /-- 42: Subtract Logical Product (45_logical.md R353). -/
  | subtractLp (j k b : BitVec 3) (y : BitVec 15)
  /-- 43: Compare Masked (46_comparison.md R383). -/
  | compareMasked (j k b : BitVec 3) (y : BitVec 15)
  /-- 44: Replace Logical Product (45_logical.md R354). -/
  | replaceLp (j k b : BitVec 3) (y : BitVec 15)
  /-- 45: Replace A + Logical Product (45_logical.md R355). -/
  | replaceAPlusLp (j k b : BitVec 3) (y : BitVec 15)
  /-- 46: Replace A − Logical Product (45_logical.md R356). -/
  | replaceAMinusLp (j k b : BitVec 3) (y : BitVec 15)
  /-- 47: Store Logical Product (45_logical.md R357). -/
  | storeLp (j k b : BitVec 3) (y : BitVec 15)
  /-- 50: Selective Set (45_logical.md R358). -/
  | selectiveSet (j k b : BitVec 3) (y : BitVec 15)
  /-- 51: Selective Complement (45_logical.md R359). -/
  | selectiveComplement (j k b : BitVec 3) (y : BitVec 15)
  /-- 52: Selective Clear (45_logical.md R360). -/
  | selectiveClear (j k b : BitVec 3) (y : BitVec 15)
  /-- 53: Selective Substitute (45_logical.md R361). -/
  | selectiveSubstitute (j k b : BitVec 3) (y : BitVec 15)
  /-- 54: Replace Selective Set (45_logical.md R362). -/
  | replaceSelectiveSet (j k b : BitVec 3) (y : BitVec 15)
  /-- 55: Replace Selective Complement (45_logical.md R363). -/
  | replaceSelectiveComplement (j k b : BitVec 3) (y : BitVec 15)
  /-- 56: Replace Selective Clear (45_logical.md R364). -/
  | replaceSelectiveClear (j k b : BitVec 3) (y : BitVec 15)
  /-- 57: Replace Selective Substitute (45_logical.md R365). -/
  | replaceSelectiveSubstitute (j k b : BitVec 3) (y : BitVec 15)
  /-- 60: Jump-Arithmetic (47_jump.md R401). -/
  | jumpArithmetic (j k b : BitVec 3) (y : BitVec 15)
  /-- 61: Jump-Manual (47_jump.md R403). -/
  | jumpManual (j k b : BitVec 3) (y : BitVec 15)
  /-- 62: Jump On Active Input Buffer (49_io.md R463). -/
  | jumpActiveInput (jh : BitVec 4) (kh : BitVec 2) (b : BitVec 3) (y : BitVec 15)
  /-- 63: Jump On Active Output Buffer (49_io.md R464). -/
  | jumpActiveOutput (jh : BitVec 4) (kh : BitVec 2) (b : BitVec 3) (y : BitVec 15)
  /-- 64: Return Jump-Arithmetic (47_jump.md R405). -/
  | returnJumpArithmetic (j k b : BitVec 3) (y : BitVec 15)
  /-- 65: Return Jump-Manual (47_jump.md R406). -/
  | returnJumpManual (j k b : BitVec 3) (y : BitVec 15)
  /-- 66: Terminate Input Buffer (49_io.md R465). -/
  | terminateInput (jh : BitVec 4) (kh : BitVec 2) (b : BitVec 3) (y : BitVec 15)
  /-- 67: Terminate Output Buffer (49_io.md R466). -/
  | terminateOutput (jh : BitVec 4) (kh : BitVec 2) (b : BitVec 3) (y : BitVec 15)
  /-- 70: Repeat (48_sequence.md R431). -/
  | repeatInstr (j k b : BitVec 3) (y : BitVec 15)
  /-- 71: B Skip on B_j (48_sequence.md R442). -/
  | bSkip (j k b : BitVec 3) (y : BitVec 15)
  /-- 72: B Jump on B_j (48_sequence.md R444). -/
  | bJump (j k b : BitVec 3) (y : BitVec 15)
  /-- 73: Activate Input Buffer Without Monitor (49_io.md R471). -/
  | activateInput (jh : BitVec 4) (kh : BitVec 2) (b : BitVec 3) (y : BitVec 15)
  /-- 74: Activate Output Buffer Without Monitor (49_io.md R472). -/
  | activateOutput (jh : BitVec 4) (kh : BitVec 2) (b : BitVec 3) (y : BitVec 15)
  /-- 75: Activate Input Buffer With Monitor (49_io.md R473). -/
  | activateInputMonitor (jh : BitVec 4) (kh : BitVec 2) (b : BitVec 3) (y : BitVec 15)
  /-- 76: Activate Output Buffer With Monitor (49_io.md R474). -/
  | activateOutputMonitor (jh : BitVec 4) (kh : BitVec 2) (b : BitVec 3) (y : BitVec 15)
  /-- 7700: (illegal: 7700) (30_encoding.md R170). -/
  | illegal7700 (b : BitVec 3) (y : BitVec 15)
  /-- 7701: Floating-Point Add (43_arith_float.md R304). -/
  | fpAdd (b : BitVec 3) (y : BitVec 15)
  /-- 7702: Floating-Point Subtract (43_arith_float.md R305). -/
  | fpSubtract (b : BitVec 3) (y : BitVec 15)
  /-- 7703: Floating-Point Multiply (43_arith_float.md R306). -/
  | fpMultiply (b : BitVec 3) (y : BitVec 15)
  /-- 7704: (unassigned 7704: no operation) (30_encoding.md R171). -/
  | unassigned7704 (b : BitVec 3) (y : BitVec 15)
  /-- 7705: Floating-Point Divide (43_arith_float.md R307). -/
  | fpDivide (b : BitVec 3) (y : BitVec 15)
  /-- 7706: Floating-Point Pack (43_arith_float.md R308). -/
  | fpPack (b : BitVec 3) (y : BitVec 15)
  /-- 7707: Floating-Point Unpack (43_arith_float.md R309). -/
  | fpUnpack (b : BitVec 3) (y : BitVec 15)
  /-- 7710: Decimal Test AQ (44_arith_decimal.md R330). -/
  | decimalTest (b : BitVec 3) (y : BitVec 15)
  /-- 7711: Decimal Add (44_arith_decimal.md R325). -/
  | decimalAdd (b : BitVec 3) (y : BitVec 15)
  /-- 7712: Decimal Subtract (44_arith_decimal.md R326). -/
  | decimalSubtract (b : BitVec 3) (y : BitVec 15)
  /-- 7713: Decimal Compare Equal (46_comparison.md R386). -/
  | decimalCompareEqual (b : BitVec 3) (y : BitVec 15)
  /-- 7714: Decimal Complement AQ (44_arith_decimal.md R327). -/
  | decimalComplement (b : BitVec 3) (y : BitVec 15)
  /-- 7715: Decimal Add With Carry (44_arith_decimal.md R328). -/
  | decimalAddCarry (b : BitVec 3) (y : BitVec 15)
  /-- 7716: Decimal Subtract With Borrow (44_arith_decimal.md R329). -/
  | decimalSubtractBorrow (b : BitVec 3) (y : BitVec 15)
  /-- 7717: Decimal Compare Less (46_comparison.md R387). -/
  | decimalCompareLess (b : BitVec 3) (y : BitVec 15)
  /-- 7720: (unassigned 7720: no operation) (30_encoding.md R171). -/
  | unassigned7720 (b : BitVec 3) (y : BitVec 15)
  /-- 7721: Enter AQ (41_transfer.md R230). -/
  | enterAq (b : BitVec 3) (y : BitVec 15)
  /-- 7722: Add AQ (42_arith_integer.md R289). -/
  | addAq (b : BitVec 3) (y : BitVec 15)
  /-- 7723: Compare AQ Equal (46_comparison.md R384). -/
  | compareAqEqual (b : BitVec 3) (y : BitVec 15)
  /-- 7724: Complement AQ (42_arith_integer.md R290). -/
  | complementAq (b : BitVec 3) (y : BitVec 15)
  /-- 7725: Store AQ (41_transfer.md R231). -/
  | storeAq (b : BitVec 3) (y : BitVec 15)
  /-- 7726: Subtract AQ (42_arith_integer.md R291). -/
  | subtractAq (b : BitVec 3) (y : BitVec 15)
  /-- 7727: Compare AQ Less (46_comparison.md R385). -/
  | compareAqLess (b : BitVec 3) (y : BitVec 15)
  /-- 7730: Scale Factor Shift (40_shift.md R210). -/
  | scaleFactorShift (b : BitVec 3) (y : BitVec 15)
  /-- 7731: Character Pack Lower (41_transfer.md R247). -/
  | charPackLower (b : BitVec 3) (y : BitVec 15)
  /-- 7732: Character Pack Upper (41_transfer.md R248). -/
  | charPackUpper (b : BitVec 3) (y : BitVec 15)
  /-- 7733: Decimal Convert Lower (44_arith_decimal.md R331). -/
  | decimalConvertLower (b : BitVec 3) (y : BitVec 15)
  /-- 7734: Decimal Convert Upper (44_arith_decimal.md R332). -/
  | decimalConvertUpper (b : BitVec 3) (y : BitVec 15)
  /-- 7735: Character Unpack Lower (41_transfer.md R249). -/
  | charUnpackLower (b : BitVec 3) (y : BitVec 15)
  /-- 7736: Character Unpack Upper (41_transfer.md R250). -/
  | charUnpackUpper (b : BitVec 3) (y : BitVec 15)
  /-- 7737: Execute Remote (47_jump.md R412). -/
  | executeRemote (b : BitVec 3) (y : BitVec 15)
  /-- 7740: Enter B0 and Jump (Table B-1: "Unconditional Jump") (47_jump.md R415). -/
  | enterB0Jump (b : BitVec 3) (y : BitVec 15)
  /-- 7741: Enter B1 and Jump (47_jump.md R417). -/
  | enterB1Jump (b : BitVec 3) (y : BitVec 15)
  /-- 7742: Enter B2 and Jump (47_jump.md R418). -/
  | enterB2Jump (b : BitVec 3) (y : BitVec 15)
  /-- 7743: Enter B3 and Jump (47_jump.md R419). -/
  | enterB3Jump (b : BitVec 3) (y : BitVec 15)
  /-- 7744: Enter B4 and Jump (47_jump.md R420). -/
  | enterB4Jump (b : BitVec 3) (y : BitVec 15)
  /-- 7745: Enter B5 and Jump (47_jump.md R421). -/
  | enterB5Jump (b : BitVec 3) (y : BitVec 15)
  /-- 7746: Enter B6 and Jump (47_jump.md R422). -/
  | enterB6Jump (b : BitVec 3) (y : BitVec 15)
  /-- 7747: Enter B7 and Jump (47_jump.md R423). -/
  | enterB7Jump (b : BitVec 3) (y : BitVec 15)
  /-- 7750: (unassigned 7750: no operation) (30_encoding.md R171). -/
  | unassigned7750 (b : BitVec 3) (y : BitVec 15)
  /-- 7751: Logical Right Shift Q (40_shift.md R207). -/
  | logicalRightShiftQ (b : BitVec 3) (y : BitVec 15)
  /-- 7752: Test and Set (48_sequence.md R445). -/
  | testAndSet (b : BitVec 3) (y : BitVec 15)
  /-- 7753: Masked Alphanumeric Equal (46_comparison.md R388). -/
  | maskedAlphaEqual (b : BitVec 3) (y : BitVec 15)
  /-- 7754: Executive Return (EXRN) (48_sequence.md R446). -/
  | executiveReturn (b : BitVec 3) (y : BitVec 15)
  /-- 7755: Logical Right Shift A (40_shift.md R208). -/
  | logicalRightShiftA (b : BitVec 3) (y : BitVec 15)
  /-- 7756: Logical Right Shift AQ (40_shift.md R209). -/
  | logicalRightShiftAq (b : BitVec 3) (y : BitVec 15)
  /-- 7757: Masked Alphanumeric Less (46_comparison.md R389). -/
  | maskedAlphaLess (b : BitVec 3) (y : BitVec 15)
  /-- 7760: (unassigned 7760: no operation; privileged) (30_encoding.md R171). -/
  | unassigned7760 (b : BitVec 3) (y : BitVec 15)
  /-- 7761: Enter IFR and RIR (41_transfer.md R240). -/
  | enterIfrRir (b : BitVec 3) (y : BitVec 15)
  /-- 7762: Load PLR (41_transfer.md R242). -/
  | loadPlr (b : BitVec 3) (y : BitVec 15)
  /-- 7763: (unassigned 7763: no operation; privileged) (30_encoding.md R171). -/
  | unassigned7763 (b : BitVec 3) (y : BitVec 15)
  /-- 7764: (unassigned 7764: no operation; privileged) (30_encoding.md R171). -/
  | unassigned7764 (b : BitVec 3) (y : BitVec 15)
  /-- 7765: Store IFR (41_transfer.md R243). -/
  | storeIfr (b : BitVec 3) (y : BitVec 15)
  /-- 7766: Enter RIR (41_transfer.md R244). -/
  | enterRir (b : BitVec 3) (y : BitVec 15)
  /-- 7767: (unassigned 7767: no operation; privileged) (30_encoding.md R171). -/
  | unassigned7767 (b : BitVec 3) (y : BitVec 15)
  /-- 7770: Initiate Synchronizing Interrupt (49_io.md R469). -/
  | initiateSyncInterrupt (b : BitVec 3) (y : BitVec 15)
  /-- 7771: Enter B-Worker (41_transfer.md R245). -/
  | enterBWorker (b : BitVec 3) (y : BitVec 15)
  /-- 7772: Store Channel Number (49_io.md R467). -/
  | storeChannelNumber (b : BitVec 3) (y : BitVec 15)
  /-- 7773: Enter Channel Select Register (49_io.md R468). -/
  | enterCsr (b : BitVec 3) (y : BitVec 15)
  /-- 7774: (unassigned 7774: no operation; privileged) (30_encoding.md R171). -/
  | unassigned7774 (b : BitVec 3) (y : BitVec 15)
  /-- 7775: Store B-Worker (41_transfer.md R246). -/
  | storeBWorker (b : BitVec 3) (y : BitVec 15)
  /-- 7776: (unassigned 7776: no operation; privileged) (30_encoding.md R171). -/
  | unassigned7776 (b : BitVec 3) (y : BitVec 15)
  /-- 7777: (unassigned 7777: no operation; privileged) (30_encoding.md R171). -/
  | unassigned7777 (b : BitVec 3) (y : BitVec 15)
  deriving DecidableEq, Repr

end Sys2Proof
end

