-- ==== Sys2Proof/WellFormed.lean ====
section
/-! DEFINITION. Which designator values the manual allows (30_encoding.md R165 and R173; 93_implementation_defined.md U6, U7). -/

namespace Sys2Proof

/-- The k designators of the Replace class: 0, 4 and 7 are not used (30_encoding.md R157). -/
def replaceK (k : BitVec 3) : Bool := k != 0#3 && k != 4#3 && k != 7#3

/-- The k designators of 23, 47, 50, 52 and 53: 7 is not used (30_encoding.md R173). -/
def notSevenK (k : BitVec 3) : Bool := k != 7#3

/-- The designators of the I/O words whose j-hat must be 0 (30_encoding.md R165). -/
def zeroJHat (jh : BitVec 4) : Bool := jh == 0#4

/-- An instruction whose designators the manual allows. The other instructions have no forbidden designator: the shift
count limit of 40_shift.md R200 is on the operand, not on the word. -/
def Instr.wellFormed : Instr → Bool
  | .illegal00 _ _ _ _ => true
  | .rightShiftQ _ _ _ _ => true
  | .rightShiftA _ _ _ _ => true
  | .rightShiftAq _ _ _ _ => true
  | .compare _ _ _ _ => true
  | .leftShiftQ _ _ _ _ => true
  | .leftShiftA _ _ _ _ => true
  | .leftShiftAq _ _ _ _ => true
  | .enterQ _ _ _ _ => true
  | .enterA _ _ _ _ => true
  | .enterB _ _ _ _ => true
  | .sendExternalFunction jh _ _ _ => zeroJHat jh
  | .storeQ _ _ _ _ => true
  | .storeA _ _ _ _ => true
  | .storeB _ _ _ _ => true
  | .storeChannel jh _ _ _ => zeroJHat jh
  | .addA _ _ _ _ => true
  | .subtractA _ _ _ _ => true
  | .multiply _ _ _ _ => true
  | .divide _ k _ _ => notSevenK k
  | .replaceAPlusY _ k _ _ => replaceK k
  | .replaceAMinusY _ k _ _ => replaceK k
  | .addQ _ _ _ _ => true
  | .subtractQ _ _ _ _ => true
  | .enterYPlusQ _ _ _ _ => true
  | .enterYMinusQ _ _ _ _ => true
  | .storeAPlusQ _ _ _ _ => true
  | .storeAMinusQ _ _ _ _ => true
  | .replaceYPlusQ _ k _ _ => replaceK k
  | .replaceYMinusQ _ k _ _ => replaceK k
  | .replaceYPlus1 _ k _ _ => replaceK k
  | .replaceYMinus1 _ k _ _ => replaceK k
  | .enterLp _ _ _ _ => true
  | .addLp _ _ _ _ => true
  | .subtractLp _ _ _ _ => true
  | .compareMasked _ _ _ _ => true
  | .replaceLp _ k _ _ => replaceK k
  | .replaceAPlusLp _ k _ _ => replaceK k
  | .replaceAMinusLp _ k _ _ => replaceK k
  | .storeLp _ k _ _ => notSevenK k
  | .selectiveSet _ k _ _ => notSevenK k
  | .selectiveComplement _ _ _ _ => true
  | .selectiveClear _ k _ _ => notSevenK k
  | .selectiveSubstitute _ k _ _ => notSevenK k
  | .replaceSelectiveSet _ k _ _ => replaceK k
  | .replaceSelectiveComplement _ k _ _ => replaceK k
  | .replaceSelectiveClear _ k _ _ => replaceK k
  | .replaceSelectiveSubstitute _ k _ _ => replaceK k
  | .jumpArithmetic _ _ _ _ => true
  | .jumpManual _ _ _ _ => true
  | .jumpActiveInput jh _ _ _ => zeroJHat jh
  | .jumpActiveOutput jh _ _ _ => zeroJHat jh
  | .returnJumpArithmetic _ _ _ _ => true
  | .returnJumpManual _ _ _ _ => true
  | .terminateInput jh kh _ _ => zeroJHat jh && kh == 0#2
  | .terminateOutput jh _ _ _ => zeroJHat jh
  | .repeatInstr _ _ _ _ => true
  | .bSkip _ _ _ _ => true
  | .bJump _ _ _ _ => true
  | .activateInput _ _ _ _ => true
  | .activateOutput _ _ _ _ => true
  | .activateInputMonitor _ _ _ _ => true
  | .activateOutputMonitor _ _ _ _ => true
  | .illegal7700 _ _ => true
  | .fpAdd _ _ => true
  | .fpSubtract _ _ => true
  | .fpMultiply _ _ => true
  | .unassigned7704 _ _ => true
  | .fpDivide _ _ => true
  | .fpPack _ _ => true
  | .fpUnpack _ _ => true
  | .decimalTest _ _ => true
  | .decimalAdd _ _ => true
  | .decimalSubtract _ _ => true
  | .decimalCompareEqual _ _ => true
  | .decimalComplement _ _ => true
  | .decimalAddCarry _ _ => true
  | .decimalSubtractBorrow _ _ => true
  | .decimalCompareLess _ _ => true
  | .unassigned7720 _ _ => true
  | .enterAq _ _ => true
  | .addAq _ _ => true
  | .compareAqEqual _ _ => true
  | .complementAq _ _ => true
  | .storeAq _ _ => true
  | .subtractAq _ _ => true
  | .compareAqLess _ _ => true
  | .scaleFactorShift _ _ => true
  | .charPackLower _ _ => true
  | .charPackUpper _ _ => true
  | .decimalConvertLower _ _ => true
  | .decimalConvertUpper _ _ => true
  | .charUnpackLower _ _ => true
  | .charUnpackUpper _ _ => true
  | .executeRemote _ _ => true
  | .enterB0Jump _ _ => true
  | .enterB1Jump _ _ => true
  | .enterB2Jump _ _ => true
  | .enterB3Jump _ _ => true
  | .enterB4Jump _ _ => true
  | .enterB5Jump _ _ => true
  | .enterB6Jump _ _ => true
  | .enterB7Jump _ _ => true
  | .unassigned7750 _ _ => true
  | .logicalRightShiftQ _ _ => true
  | .testAndSet _ _ => true
  | .maskedAlphaEqual _ _ => true
  | .executiveReturn _ _ => true
  | .logicalRightShiftA _ _ => true
  | .logicalRightShiftAq _ _ => true
  | .maskedAlphaLess _ _ => true
  | .unassigned7760 _ _ => true
  | .enterIfrRir _ _ => true
  | .loadPlr _ _ => true
  | .unassigned7763 _ _ => true
  | .unassigned7764 _ _ => true
  | .storeIfr _ _ => true
  | .enterRir _ _ => true
  | .unassigned7767 _ _ => true
  | .initiateSyncInterrupt _ _ => true
  | .enterBWorker _ _ => true
  | .storeChannelNumber _ _ => true
  | .enterCsr _ _ => true
  | .unassigned7774 _ _ => true
  | .storeBWorker _ _ => true
  | .unassigned7776 _ _ => true
  | .unassigned7777 _ _ => true

end Sys2Proof
end

