-- ==== Sys2Proof/Decode.lean ====
section
/-! DEFINITION. Decoding (30_encoding.md R144), total on 30-bit words since every word selects a row of the opcode table, and
rejecting by name what is no 30-bit word; then the encoder (R186). Designators the manual forbids are not rejected here: in guard
mode a privileged word traps whatever its designators, so the meaning refuses them after that check (log 15). -/

namespace Sys2Proof

/-- The upper six bits select the operation (R144). -/
def fieldF (w : Word) : BitVec 6 := w.extractLsb' 24 6

/-- Bits 23 to 18 select the operation of a 77 word (R142). -/
def fieldG (w : Word) : BitVec 6 := w.extractLsb' 18 6

def fieldJ (w : Word) : BitVec 3 := w.extractLsb' 21 3

def fieldK (w : Word) : BitVec 3 := w.extractLsb' 18 3

/-- The four-bit j-hat of an I/O word (R143). -/
def fieldJHat (w : Word) : BitVec 4 := w.extractLsb' 20 4

/-- The two-bit k-hat of an I/O word (R143). -/
def fieldKHat (w : Word) : BitVec 2 := w.extractLsb' 18 2

def fieldB (w : Word) : BitVec 3 := w.extractLsb' 15 3

def fieldY (w : Word) : BitVec 15 := w.extractLsb' 0 15

/-- The 77 words, by g (30_encoding.md R181). -/
def decode77 (w : Word) : Instr :=
  match (fieldG w).toNat with
  | 0 => .illegal7700 (fieldB w) (fieldY w)
  | 1 => .fpAdd (fieldB w) (fieldY w)
  | 2 => .fpSubtract (fieldB w) (fieldY w)
  | 3 => .fpMultiply (fieldB w) (fieldY w)
  | 4 => .unassigned7704 (fieldB w) (fieldY w)
  | 5 => .fpDivide (fieldB w) (fieldY w)
  | 6 => .fpPack (fieldB w) (fieldY w)
  | 7 => .fpUnpack (fieldB w) (fieldY w)
  | 8 => .decimalTest (fieldB w) (fieldY w)
  | 9 => .decimalAdd (fieldB w) (fieldY w)
  | 10 => .decimalSubtract (fieldB w) (fieldY w)
  | 11 => .decimalCompareEqual (fieldB w) (fieldY w)
  | 12 => .decimalComplement (fieldB w) (fieldY w)
  | 13 => .decimalAddCarry (fieldB w) (fieldY w)
  | 14 => .decimalSubtractBorrow (fieldB w) (fieldY w)
  | 15 => .decimalCompareLess (fieldB w) (fieldY w)
  | 16 => .unassigned7720 (fieldB w) (fieldY w)
  | 17 => .enterAq (fieldB w) (fieldY w)
  | 18 => .addAq (fieldB w) (fieldY w)
  | 19 => .compareAqEqual (fieldB w) (fieldY w)
  | 20 => .complementAq (fieldB w) (fieldY w)
  | 21 => .storeAq (fieldB w) (fieldY w)
  | 22 => .subtractAq (fieldB w) (fieldY w)
  | 23 => .compareAqLess (fieldB w) (fieldY w)
  | 24 => .scaleFactorShift (fieldB w) (fieldY w)
  | 25 => .charPackLower (fieldB w) (fieldY w)
  | 26 => .charPackUpper (fieldB w) (fieldY w)
  | 27 => .decimalConvertLower (fieldB w) (fieldY w)
  | 28 => .decimalConvertUpper (fieldB w) (fieldY w)
  | 29 => .charUnpackLower (fieldB w) (fieldY w)
  | 30 => .charUnpackUpper (fieldB w) (fieldY w)
  | 31 => .executeRemote (fieldB w) (fieldY w)
  | 32 => .enterB0Jump (fieldB w) (fieldY w)
  | 33 => .enterB1Jump (fieldB w) (fieldY w)
  | 34 => .enterB2Jump (fieldB w) (fieldY w)
  | 35 => .enterB3Jump (fieldB w) (fieldY w)
  | 36 => .enterB4Jump (fieldB w) (fieldY w)
  | 37 => .enterB5Jump (fieldB w) (fieldY w)
  | 38 => .enterB6Jump (fieldB w) (fieldY w)
  | 39 => .enterB7Jump (fieldB w) (fieldY w)
  | 40 => .unassigned7750 (fieldB w) (fieldY w)
  | 41 => .logicalRightShiftQ (fieldB w) (fieldY w)
  | 42 => .testAndSet (fieldB w) (fieldY w)
  | 43 => .maskedAlphaEqual (fieldB w) (fieldY w)
  | 44 => .executiveReturn (fieldB w) (fieldY w)
  | 45 => .logicalRightShiftA (fieldB w) (fieldY w)
  | 46 => .logicalRightShiftAq (fieldB w) (fieldY w)
  | 47 => .maskedAlphaLess (fieldB w) (fieldY w)
  | 48 => .unassigned7760 (fieldB w) (fieldY w)
  | 49 => .enterIfrRir (fieldB w) (fieldY w)
  | 50 => .loadPlr (fieldB w) (fieldY w)
  | 51 => .unassigned7763 (fieldB w) (fieldY w)
  | 52 => .unassigned7764 (fieldB w) (fieldY w)
  | 53 => .storeIfr (fieldB w) (fieldY w)
  | 54 => .enterRir (fieldB w) (fieldY w)
  | 55 => .unassigned7767 (fieldB w) (fieldY w)
  | 56 => .initiateSyncInterrupt (fieldB w) (fieldY w)
  | 57 => .enterBWorker (fieldB w) (fieldY w)
  | 58 => .storeChannelNumber (fieldB w) (fieldY w)
  | 59 => .enterCsr (fieldB w) (fieldY w)
  | 60 => .unassigned7774 (fieldB w) (fieldY w)
  | 61 => .storeBWorker (fieldB w) (fieldY w)
  | 62 => .unassigned7776 (fieldB w) (fieldY w)
  | _ => .unassigned7777 (fieldB w) (fieldY w)

/-- The instruction of a 30-bit word (30_encoding.md R144, R180). -/
def decode (w : Word) : Instr :=
  match (fieldF w).toNat with
  | 0 => .illegal00 (fieldJ w) (fieldK w) (fieldB w) (fieldY w)
  | 1 => .rightShiftQ (fieldJ w) (fieldK w) (fieldB w) (fieldY w)
  | 2 => .rightShiftA (fieldJ w) (fieldK w) (fieldB w) (fieldY w)
  | 3 => .rightShiftAq (fieldJ w) (fieldK w) (fieldB w) (fieldY w)
  | 4 => .compare (fieldJ w) (fieldK w) (fieldB w) (fieldY w)
  | 5 => .leftShiftQ (fieldJ w) (fieldK w) (fieldB w) (fieldY w)
  | 6 => .leftShiftA (fieldJ w) (fieldK w) (fieldB w) (fieldY w)
  | 7 => .leftShiftAq (fieldJ w) (fieldK w) (fieldB w) (fieldY w)
  | 8 => .enterQ (fieldJ w) (fieldK w) (fieldB w) (fieldY w)
  | 9 => .enterA (fieldJ w) (fieldK w) (fieldB w) (fieldY w)
  | 10 => .enterB (fieldJ w) (fieldK w) (fieldB w) (fieldY w)
  | 11 => .sendExternalFunction (fieldJHat w) (fieldKHat w) (fieldB w) (fieldY w)
  | 12 => .storeQ (fieldJ w) (fieldK w) (fieldB w) (fieldY w)
  | 13 => .storeA (fieldJ w) (fieldK w) (fieldB w) (fieldY w)
  | 14 => .storeB (fieldJ w) (fieldK w) (fieldB w) (fieldY w)
  | 15 => .storeChannel (fieldJHat w) (fieldKHat w) (fieldB w) (fieldY w)
  | 16 => .addA (fieldJ w) (fieldK w) (fieldB w) (fieldY w)
  | 17 => .subtractA (fieldJ w) (fieldK w) (fieldB w) (fieldY w)
  | 18 => .multiply (fieldJ w) (fieldK w) (fieldB w) (fieldY w)
  | 19 => .divide (fieldJ w) (fieldK w) (fieldB w) (fieldY w)
  | 20 => .replaceAPlusY (fieldJ w) (fieldK w) (fieldB w) (fieldY w)
  | 21 => .replaceAMinusY (fieldJ w) (fieldK w) (fieldB w) (fieldY w)
  | 22 => .addQ (fieldJ w) (fieldK w) (fieldB w) (fieldY w)
  | 23 => .subtractQ (fieldJ w) (fieldK w) (fieldB w) (fieldY w)
  | 24 => .enterYPlusQ (fieldJ w) (fieldK w) (fieldB w) (fieldY w)
  | 25 => .enterYMinusQ (fieldJ w) (fieldK w) (fieldB w) (fieldY w)
  | 26 => .storeAPlusQ (fieldJ w) (fieldK w) (fieldB w) (fieldY w)
  | 27 => .storeAMinusQ (fieldJ w) (fieldK w) (fieldB w) (fieldY w)
  | 28 => .replaceYPlusQ (fieldJ w) (fieldK w) (fieldB w) (fieldY w)
  | 29 => .replaceYMinusQ (fieldJ w) (fieldK w) (fieldB w) (fieldY w)
  | 30 => .replaceYPlus1 (fieldJ w) (fieldK w) (fieldB w) (fieldY w)
  | 31 => .replaceYMinus1 (fieldJ w) (fieldK w) (fieldB w) (fieldY w)
  | 32 => .enterLp (fieldJ w) (fieldK w) (fieldB w) (fieldY w)
  | 33 => .addLp (fieldJ w) (fieldK w) (fieldB w) (fieldY w)
  | 34 => .subtractLp (fieldJ w) (fieldK w) (fieldB w) (fieldY w)
  | 35 => .compareMasked (fieldJ w) (fieldK w) (fieldB w) (fieldY w)
  | 36 => .replaceLp (fieldJ w) (fieldK w) (fieldB w) (fieldY w)
  | 37 => .replaceAPlusLp (fieldJ w) (fieldK w) (fieldB w) (fieldY w)
  | 38 => .replaceAMinusLp (fieldJ w) (fieldK w) (fieldB w) (fieldY w)
  | 39 => .storeLp (fieldJ w) (fieldK w) (fieldB w) (fieldY w)
  | 40 => .selectiveSet (fieldJ w) (fieldK w) (fieldB w) (fieldY w)
  | 41 => .selectiveComplement (fieldJ w) (fieldK w) (fieldB w) (fieldY w)
  | 42 => .selectiveClear (fieldJ w) (fieldK w) (fieldB w) (fieldY w)
  | 43 => .selectiveSubstitute (fieldJ w) (fieldK w) (fieldB w) (fieldY w)
  | 44 => .replaceSelectiveSet (fieldJ w) (fieldK w) (fieldB w) (fieldY w)
  | 45 => .replaceSelectiveComplement (fieldJ w) (fieldK w) (fieldB w) (fieldY w)
  | 46 => .replaceSelectiveClear (fieldJ w) (fieldK w) (fieldB w) (fieldY w)
  | 47 => .replaceSelectiveSubstitute (fieldJ w) (fieldK w) (fieldB w) (fieldY w)
  | 48 => .jumpArithmetic (fieldJ w) (fieldK w) (fieldB w) (fieldY w)
  | 49 => .jumpManual (fieldJ w) (fieldK w) (fieldB w) (fieldY w)
  | 50 => .jumpActiveInput (fieldJHat w) (fieldKHat w) (fieldB w) (fieldY w)
  | 51 => .jumpActiveOutput (fieldJHat w) (fieldKHat w) (fieldB w) (fieldY w)
  | 52 => .returnJumpArithmetic (fieldJ w) (fieldK w) (fieldB w) (fieldY w)
  | 53 => .returnJumpManual (fieldJ w) (fieldK w) (fieldB w) (fieldY w)
  | 54 => .terminateInput (fieldJHat w) (fieldKHat w) (fieldB w) (fieldY w)
  | 55 => .terminateOutput (fieldJHat w) (fieldKHat w) (fieldB w) (fieldY w)
  | 56 => .repeatInstr (fieldJ w) (fieldK w) (fieldB w) (fieldY w)
  | 57 => .bSkip (fieldJ w) (fieldK w) (fieldB w) (fieldY w)
  | 58 => .bJump (fieldJ w) (fieldK w) (fieldB w) (fieldY w)
  | 59 => .activateInput (fieldJHat w) (fieldKHat w) (fieldB w) (fieldY w)
  | 60 => .activateOutput (fieldJHat w) (fieldKHat w) (fieldB w) (fieldY w)
  | 61 => .activateInputMonitor (fieldJHat w) (fieldKHat w) (fieldB w) (fieldY w)
  | 62 => .activateOutputMonitor (fieldJHat w) (fieldKHat w) (fieldB w) (fieldY w)
  | _ => decode77 w

/-- Why bits are no instruction. -/
inductive DecodeError where
  /-- More bits than one 30-bit word: raised by `decodeBits` only, safe. -/
  | notAWord
  deriving DecidableEq, Repr

/-- The instruction of any bits: one word is 30 bits, and every instruction is one word (30_encoding.md R140). -/
def decodeBits (n : Nat) : Except DecodeError Instr :=
  if n < 2 ^ 30 then .ok (decode (BitVec.ofNat 30 n)) else .error .notAWord

/-- The instruction of an opcode-table word of `nbits` bits. -/
def decodeTableWord (nbits w : Nat) : Option Instr :=
  match decodeBits (w % 2 ^ nbits) with
  | .ok i => some i
  | .error _ => none

/-- A normal word, `f j k b y` (30_encoding.md R141, R186). -/
def normalWord (f : BitVec 6) (j k b : BitVec 3) (y : BitVec 15) : Word := f ++ j ++ k ++ b ++ y

/-- An I/O word, `f jh kh b y` (30_encoding.md R143, R186). -/
def ioWord (f : BitVec 6) (jh : BitVec 4) (kh : BitVec 2) (b : BitVec 3) (y : BitVec 15) : Word := f ++ jh ++ kh ++ b ++ y

/-- A 77 word, `77 g b y` (30_encoding.md R142, R186). -/
def word77 (g : BitVec 6) (b : BitVec 3) (y : BitVec 15) : Word := 63#6 ++ g ++ b ++ y

/-- The word of an instruction, from the same tables. -/
def encode : Instr → Word
  | .illegal00 j k b y => normalWord 0#6 j k b y
  | .rightShiftQ j k b y => normalWord 1#6 j k b y
  | .rightShiftA j k b y => normalWord 2#6 j k b y
  | .rightShiftAq j k b y => normalWord 3#6 j k b y
  | .compare j k b y => normalWord 4#6 j k b y
  | .leftShiftQ j k b y => normalWord 5#6 j k b y
  | .leftShiftA j k b y => normalWord 6#6 j k b y
  | .leftShiftAq j k b y => normalWord 7#6 j k b y
  | .enterQ j k b y => normalWord 8#6 j k b y
  | .enterA j k b y => normalWord 9#6 j k b y
  | .enterB j k b y => normalWord 10#6 j k b y
  | .sendExternalFunction jh kh b y => ioWord 11#6 jh kh b y
  | .storeQ j k b y => normalWord 12#6 j k b y
  | .storeA j k b y => normalWord 13#6 j k b y
  | .storeB j k b y => normalWord 14#6 j k b y
  | .storeChannel jh kh b y => ioWord 15#6 jh kh b y
  | .addA j k b y => normalWord 16#6 j k b y
  | .subtractA j k b y => normalWord 17#6 j k b y
  | .multiply j k b y => normalWord 18#6 j k b y
  | .divide j k b y => normalWord 19#6 j k b y
  | .replaceAPlusY j k b y => normalWord 20#6 j k b y
  | .replaceAMinusY j k b y => normalWord 21#6 j k b y
  | .addQ j k b y => normalWord 22#6 j k b y
  | .subtractQ j k b y => normalWord 23#6 j k b y
  | .enterYPlusQ j k b y => normalWord 24#6 j k b y
  | .enterYMinusQ j k b y => normalWord 25#6 j k b y
  | .storeAPlusQ j k b y => normalWord 26#6 j k b y
  | .storeAMinusQ j k b y => normalWord 27#6 j k b y
  | .replaceYPlusQ j k b y => normalWord 28#6 j k b y
  | .replaceYMinusQ j k b y => normalWord 29#6 j k b y
  | .replaceYPlus1 j k b y => normalWord 30#6 j k b y
  | .replaceYMinus1 j k b y => normalWord 31#6 j k b y
  | .enterLp j k b y => normalWord 32#6 j k b y
  | .addLp j k b y => normalWord 33#6 j k b y
  | .subtractLp j k b y => normalWord 34#6 j k b y
  | .compareMasked j k b y => normalWord 35#6 j k b y
  | .replaceLp j k b y => normalWord 36#6 j k b y
  | .replaceAPlusLp j k b y => normalWord 37#6 j k b y
  | .replaceAMinusLp j k b y => normalWord 38#6 j k b y
  | .storeLp j k b y => normalWord 39#6 j k b y
  | .selectiveSet j k b y => normalWord 40#6 j k b y
  | .selectiveComplement j k b y => normalWord 41#6 j k b y
  | .selectiveClear j k b y => normalWord 42#6 j k b y
  | .selectiveSubstitute j k b y => normalWord 43#6 j k b y
  | .replaceSelectiveSet j k b y => normalWord 44#6 j k b y
  | .replaceSelectiveComplement j k b y => normalWord 45#6 j k b y
  | .replaceSelectiveClear j k b y => normalWord 46#6 j k b y
  | .replaceSelectiveSubstitute j k b y => normalWord 47#6 j k b y
  | .jumpArithmetic j k b y => normalWord 48#6 j k b y
  | .jumpManual j k b y => normalWord 49#6 j k b y
  | .jumpActiveInput jh kh b y => ioWord 50#6 jh kh b y
  | .jumpActiveOutput jh kh b y => ioWord 51#6 jh kh b y
  | .returnJumpArithmetic j k b y => normalWord 52#6 j k b y
  | .returnJumpManual j k b y => normalWord 53#6 j k b y
  | .terminateInput jh kh b y => ioWord 54#6 jh kh b y
  | .terminateOutput jh kh b y => ioWord 55#6 jh kh b y
  | .repeatInstr j k b y => normalWord 56#6 j k b y
  | .bSkip j k b y => normalWord 57#6 j k b y
  | .bJump j k b y => normalWord 58#6 j k b y
  | .activateInput jh kh b y => ioWord 59#6 jh kh b y
  | .activateOutput jh kh b y => ioWord 60#6 jh kh b y
  | .activateInputMonitor jh kh b y => ioWord 61#6 jh kh b y
  | .activateOutputMonitor jh kh b y => ioWord 62#6 jh kh b y
  | .illegal7700 b y => word77 0#6 b y
  | .fpAdd b y => word77 1#6 b y
  | .fpSubtract b y => word77 2#6 b y
  | .fpMultiply b y => word77 3#6 b y
  | .unassigned7704 b y => word77 4#6 b y
  | .fpDivide b y => word77 5#6 b y
  | .fpPack b y => word77 6#6 b y
  | .fpUnpack b y => word77 7#6 b y
  | .decimalTest b y => word77 8#6 b y
  | .decimalAdd b y => word77 9#6 b y
  | .decimalSubtract b y => word77 10#6 b y
  | .decimalCompareEqual b y => word77 11#6 b y
  | .decimalComplement b y => word77 12#6 b y
  | .decimalAddCarry b y => word77 13#6 b y
  | .decimalSubtractBorrow b y => word77 14#6 b y
  | .decimalCompareLess b y => word77 15#6 b y
  | .unassigned7720 b y => word77 16#6 b y
  | .enterAq b y => word77 17#6 b y
  | .addAq b y => word77 18#6 b y
  | .compareAqEqual b y => word77 19#6 b y
  | .complementAq b y => word77 20#6 b y
  | .storeAq b y => word77 21#6 b y
  | .subtractAq b y => word77 22#6 b y
  | .compareAqLess b y => word77 23#6 b y
  | .scaleFactorShift b y => word77 24#6 b y
  | .charPackLower b y => word77 25#6 b y
  | .charPackUpper b y => word77 26#6 b y
  | .decimalConvertLower b y => word77 27#6 b y
  | .decimalConvertUpper b y => word77 28#6 b y
  | .charUnpackLower b y => word77 29#6 b y
  | .charUnpackUpper b y => word77 30#6 b y
  | .executeRemote b y => word77 31#6 b y
  | .enterB0Jump b y => word77 32#6 b y
  | .enterB1Jump b y => word77 33#6 b y
  | .enterB2Jump b y => word77 34#6 b y
  | .enterB3Jump b y => word77 35#6 b y
  | .enterB4Jump b y => word77 36#6 b y
  | .enterB5Jump b y => word77 37#6 b y
  | .enterB6Jump b y => word77 38#6 b y
  | .enterB7Jump b y => word77 39#6 b y
  | .unassigned7750 b y => word77 40#6 b y
  | .logicalRightShiftQ b y => word77 41#6 b y
  | .testAndSet b y => word77 42#6 b y
  | .maskedAlphaEqual b y => word77 43#6 b y
  | .executiveReturn b y => word77 44#6 b y
  | .logicalRightShiftA b y => word77 45#6 b y
  | .logicalRightShiftAq b y => word77 46#6 b y
  | .maskedAlphaLess b y => word77 47#6 b y
  | .unassigned7760 b y => word77 48#6 b y
  | .enterIfrRir b y => word77 49#6 b y
  | .loadPlr b y => word77 50#6 b y
  | .unassigned7763 b y => word77 51#6 b y
  | .unassigned7764 b y => word77 52#6 b y
  | .storeIfr b y => word77 53#6 b y
  | .enterRir b y => word77 54#6 b y
  | .unassigned7767 b y => word77 55#6 b y
  | .initiateSyncInterrupt b y => word77 56#6 b y
  | .enterBWorker b y => word77 57#6 b y
  | .storeChannelNumber b y => word77 58#6 b y
  | .enterCsr b y => word77 59#6 b y
  | .unassigned7774 b y => word77 60#6 b y
  | .storeBWorker b y => word77 61#6 b y
  | .unassigned7776 b y => word77 62#6 b y
  | .unassigned7777 b y => word77 63#6 b y

end Sys2Proof
end

