-- ==== Sys2Proof/Config.lean ====
section
/-! DEFINITION. The parameters of the installation and the holes of the text (00_scope.md R6), and the free values:
opaque constants with no body, taken wherever the manual leaves a value open (93_implementation_defined.md). -/

namespace Sys2Proof

/-- The wiring of a channel, `CH_MODE[c]` (49_io.md R480). -/
inductive ChannelMode where
  | isi
  | esi
  deriving DecidableEq, Repr

/-- `GROUP_RATE[g]`, the transfer rate of a channel group; no rule depends on it (00_scope.md R6). -/
inductive GroupRate where
  | normal
  | compatible
  deriving DecidableEq, Repr

/-- `REPEAT_SKIP`: what a satisfied skip condition does inside a Repeat sequence (48_sequence.md R436). -/
inductive RepeatSkip where
  | terminate
  | ignore
  deriving DecidableEq, Repr

/-- `DEC_OVF_SOURCE`: the designator 7710 tests (44_arith_decimal.md R330). -/
inductive DecOvfSource where
  | f4OrF5
  | f5Only
  | f4Only
  deriving DecidableEq, Repr

/-- `FP_ROUND` (43_arith_float.md R303): truncation, or a rule the text does not give. -/
inductive FpRound where
  | truncate
  | other
  deriving DecidableEq, Repr

/-- The parameters of 00_scope.md R6 that no operator changes while the machine runs. It stands in the state as plain
data, so that a statement about every state holds for every installation (log 9). -/
structure Config where
  /-- `MEM_WORDS` is 131072, not 65536. -/
  largeStorage : Bool
  /-- `N_CHANNELS` is 12 + 4 · this. -/
  channelGroups : Fin 4
  /-- `CH_MODE[c] = ESI`; the entry of channel 0 is not used, it is ISI (49_io.md R480). -/
  esiWired : Vector Bool 24
  /-- `GROUP_RATE` of channels 0 to 7, 8 to 15 and 16 to 23 (log 52). -/
  groupRate : Vector GroupRate 3
  /-- Which incoming synchronizing lines are wired; `N_SYNC_LINES` counts them. That a single line may be either of the two is
  the model's choice (log 47). -/
  syncIn : Vector Bool 2
  /-- Which outgoing synchronizing lines are wired (log 47). -/
  syncOut : Vector Bool 2
  /-- `TAS_VECTOR` is 000030 + this. -/
  tasVector : BitVec 3
  /-- `REPEAT_STORE_B`, the index register that displaces a repeated replace store. -/
  repeatStoreB : BitVec 3
  repeatSkip : RepeatSkip
  /-- `SYNC0_BIT` is 0 and not 10 as printed (49_io.md R469). -/
  sync0AtBit0 : Bool
  decOvf : DecOvfSource
  fpRound : FpRound
  deriving DecidableEq, Repr

/-- The installation of the model's reset state, DESIGN CHOICE of log 9: the largest storage, 24 ISI channels at the normal
rate, two synchronizing lines in each direction, and the spec's own recommendation for every hole of the text. -/
def Config.standard : Config where
  largeStorage := true
  channelGroups := 3
  esiWired := Vector.replicate 24 false
  groupRate := Vector.replicate 3 .normal
  syncIn := Vector.replicate 2 true
  syncOut := Vector.replicate 2 true
  tasVector := 0#3
  repeatStoreB := 6#3
  repeatSkip := .terminate
  sync0AtBit0 := false
  decOvf := .f4OrF5
  fpRound := .truncate

/-- A free choice between two behaviours: the n-th one taken (log 10). -/
opaque Config.freeBit : Nat → Bool

/-- A free 30-bit value: the n-th one taken (log 10). -/
opaque Config.freeWord : Nat → Word

/-- The bank of an absolute address in the odd-even mode, which the text does not give (20_memory.md R125, log 29). -/
opaque Config.oddEvenBank : Addr → BitVec 2

/-- What the rounding makes of an inexact floating-point result when `FP_ROUND` is another rule than truncation: whether it carries
into the characteristic (bit 47), and the fraction below its first bit (bits 46 to 0). A free value of the exact result's sign,
magnitude, binary exponent and whether a remainder was left (43_arith_float.md R303, log 22). -/
opaque Config.otherRounding : Bool → Nat → Int → Bool → BitVec 48

end Sys2Proof
end

