-- ==== Sys2Proof/Machine/State.lean ====
section
/-! DEFINITION. The state of the machine: every piece of state the spec gives it (10_state.md) and the model's own fields
(INVENTORY.md lists them all), its reset, the reasons a step can stop, and one setter per field. -/

namespace Sys2Proof.Machine

open Sys2Proof

/-- One set of index registers (10_state.md R25): B1 to B3 of 15 bits, B4 to B7 of 17 bits. -/
structure BSet where
  b1 : Half
  b2 : Half
  b3 : Half
  b4 : Addr
  b5 : Addr
  b6 : Addr
  b7 : Addr
  deriving DecidableEq, Repr

/-- `NEW_IFR_PENDING` (10_state.md R59, 41_transfer.md R241): 0 is `settled`, 2 is `loading` (7761 itself is running), 1 is
`due` (the instruction after 7761). -/
inductive IfrSwitch where
  | settled
  | loading
  | due
  deriving DecidableEq, Repr

/-- The control registers and their hidden flags (10_state.md R35 to R45, R58, R59). -/
structure Control where
  /-- `IFR` (R35). -/
  ifr : Word
  /-- `IFR_ACTIVE` (R41). -/
  ifrActive : Bool
  /-- `IFR_HOLD` (R37). -/
  ifrHold : Bool
  /-- `NEW_IFR_PENDING` (R59). -/
  newIfr : IfrSwitch
  /-- The IFR word that governs while a newly loaded one is not yet in force: the OLD configuration of R241 (log 32). -/
  oldIfr : Word
  /-- `REINIT_REPEAT` (R58). -/
  reinit : Bool
  /-- `PLR.UL` (R42). -/
  plrUL : BitVec 11
  /-- `PLR.LL` (R42). -/
  plrLL : BitVec 11
  /-- `RIR.IV` (R44). -/
  rirIV : BitVec 11
  /-- `RIR_ACTIVE` (R45). -/
  rirActive : Bool
  deriving DecidableEq, Repr

/-- The channel registers (10_state.md R46 to R49). -/
structure ChannelSelect where
  csr : BitVec 5
  iasr : BitVec 5
  pecsr : BitVec 5
  useIasr : Bool
  usePecsr : Bool
  deriving DecidableEq, Repr

/-- `BANK_MODE` (00_scope.md R6). -/
inductive BankMode where
  | oddEven
  | continuous
  deriving DecidableEq, Repr

/-- The operator's switches (10_state.md R50, R51; 00_scope.md R6). -/
structure Panel where
  msr : BitVec 2
  key1 : Bool
  key2 : Bool
  key3 : Bool
  stopKey5 : Bool
  stopKey6 : Bool
  stopKey7 : Bool
  bankMode : BankMode
  deriving DecidableEq, Repr

/-- A conditional interrupt request (60_exceptions.md R522, R523). -/
inductive CondInt where
  | bcwParity (c : Fin 24)
  | ioDataParity (c : Fin 24)
  | powerLoss
  | externalEsi (c : Fin 24)
  | inputMonitorEsi (c : Fin 24)
  | outputMonitorEsi (c : Fin 24)
  | externalIsi (c : Fin 24)
  | inputMonitorIsi (c : Fin 24)
  | outputMonitorIsi (c : Fin 24)
  | dayClock
  | realTimeClock
  | sync0
  | sync1
  deriving DecidableEq, Repr

/-- An unconditional interrupt (60_exceptions.md R521, R523). -/
inductive UncondInt where
  | illegalInstruction
  | programProtection
  | timeout
  | memoryParity (bank : BitVec 2)
  | executiveReturn
  | testAndSet
  | fpUnderflow
  | fpOverflow
  deriving DecidableEq, Repr

/-- An interrupt of either class (60_exceptions.md R523). -/
inductive Interrupt where
  | cond (x : CondInt)
  | uncond (x : UncondInt)
  deriving DecidableEq, Repr

/-- The interrupt lockout (10_state.md R55, R61). -/
structure Lockout where
  locked : Bool
  /-- `LOCKOUT_BY_SIL`. -/
  bySil : Bool
  /-- `SIL_TIMER`, in nanoseconds (log 40). -/
  silTimer : Nat
  deriving DecidableEq, Repr

/-- The Repeat state (10_state.md R58). -/
structure RepeatState where
  active : Bool
  j : BitVec 3
  ybar : Addr
  first : Bool
  /-- The repeated instruction's word once it has been fetched: it is fetched once (48_sequence.md R439). -/
  word : Option Word
  deriving DecidableEq, Repr

/-- The state of one channel (10_state.md R57). -/
structure Channel where
  inActive : Bool
  outActive : Bool
  inMon : Bool
  outMon : Bool
  efActive : Bool
  outDone : Bool
  /-- `IDR` is up and not yet acknowledged (49_io.md R460, log 36). -/
  idr : Bool
  /-- `ODR` is up and not yet acknowledged. -/
  odr : Bool
  /-- `EI` is up and not yet acknowledged. -/
  ei : Bool
  inLines : Word
  deriving DecidableEq, Repr

/-- What the clock agents ask of storage and have not yet been given (60_exceptions.md R580, R583; log 37). -/
structure Clocks where
  dayData : Option (BitVec 22)
  rtcTicks : Nat
  deriving DecidableEq, Repr

/-- A signal the machine sends to a device, the console or another CPU (49_io.md R460, R461, R469, R602). -/
inductive Signal where
  | inputAck (c : Fin 24)
  | outputAck (c : Fin 24) (w : Word)
  | externalFunction (c : Fin 24) (w : Word)
  | ioClear
  | sync0
  | sync1
  | audioEnable
  | audioDisable
  deriving DecidableEq, Repr

/-- The part of a word a write replaces: `30`, `15L` or `15U` (20_memory.md R84). -/
inductive Part where
  | whole
  | lower
  | upper
  deriving DecidableEq, Repr

/-- What another agent does next (logs 7, 8, 50, 51 and 54). -/
inductive Event where
  /-- The CPU runs; `defer` puts off a conditional interrupt that is due (60_exceptions.md R532, D1). -/
  | cpu (defer : Bool)
  /-- A device drives the 30 input lines of its channel. -/
  | inputLines (c : Fin 24) (w : Word)
  | idrUp (c : Fin 24)
  | idrDown (c : Fin 24)
  | odrUp (c : Fin 24)
  | odrDown (c : Fin 24)
  | eiUp (c : Fin 24)
  | eiDown (c : Fin 24)
  /-- The I/O logic serves the request of best function priority (49_io.md R500). -/
  | service
  /-- The day clock asks for its word to be updated (60_exceptions.md R580). -/
  | dayClockRequest (time : BitVec 22)
  /-- Six seconds have passed (60_exceptions.md R581). -/
  | dayClockTick
  /-- Two hundred microseconds have passed (60_exceptions.md R583). -/
  | rtcTick
  /-- Another CPU signals synchronizing line 0 or 1 (60_exceptions.md R565). -/
  | syncLine (line : Fin 2)
  /-- Another CPU writes one part of a word of shared storage (60_exceptions.md R590, 20_memory.md R130, log 54). -/
  | otherStore (a : Addr) (p : Part) (w : Word)
  /-- Another CPU's Test and Set on a word of shared storage, in one step (20_memory.md R132, log 54). -/
  | otherTestAndSet (a : Addr)
  | powerLoss
  /-- Time passes, for the SIL timer only (60_exceptions.md R552, D42). -/
  | elapsed (ns : Nat)
  /-- A half-word's parity bit goes wrong (20_memory.md R125, U3). -/
  | parityFault (a : Addr) (upper : Bool)
  | setMsr (m : BitVec 2)
  /-- Jump key 1 + n. -/
  | setJumpKey (n : Fin 3) (v : Bool)
  /-- Stop key 5 + n. -/
  | setStopKey (n : Fin 3) (v : Bool)
  | setBankMode (m : BankMode)
  /-- A word is loaded into storage while the CPU is stopped (70_reset_and_hazards.md R605). -/
  | load (a : Addr) (w : Word)
  /-- The address of the first instruction is placed in P while the CPU is stopped (R605). -/
  | setP (a : Addr)
  | start
  | stop
  /-- Master clear of a stopped CPU (70_reset_and_hazards.md R600). -/
  | masterClear
  /-- I/O clear of a stopped CPU (70_reset_and_hazards.md R602). -/
  | ioClear
  deriving DecidableEq, Repr

/-- Where the next instruction word comes from: P, an interrupt's fixed address, or an Execute Remote's target (logs 5, 6). -/
inductive FetchSource where
  | program
  | fixed (n : BitVec 15)
  | remote (a : Addr)
  deriving DecidableEq, Repr

/-- Primary storage as (absolute address, word) pairs; an address that is not listed reads 0 (logs 2 and 4). -/
abbrev Memory := List (Nat × Word)

/-- Why the machine stops. Every fault is a stuck case of 93_implementation_defined.md and is safe: the manual gives no
effect. -/
inductive Fault where
  /-- A reference beyond the installed storage (20_memory.md R83, U1). Raised by every storage reference; safe. -/
  | storageNotInstalled
  /-- An I/O instruction on a channel number that names no fitted channel (10_state.md R46, U12). Raised by the channel
  instructions; safe. -/
  | channelNotFitted
  /-- An Execute Remote whose target is 7737 or 70 (47_jump.md R412, U15). Raised when that target is run; safe. -/
  | remoteTargetNotAllowed
  /-- The instruction after a 7761 that loaded bit 29 was no taken jump (48_sequence.md R441, U17). Raised at the end of an
  instruction; safe. -/
  | reinitiationNotFollowedByJump
  deriving DecidableEq, Repr

/-- Why an instruction is given no result. -/
inductive Refusal where
  /-- No meaning has been written for the instruction. Raised by the dispatch alone; safe. -/
  | notModelled (mnemonic : String)
  /-- A designator value the manual forbids without saying what happens (30_encoding.md R165, R173, U6, U7). Raised by the
  instructions with such values; safe. -/
  | forbiddenDesignator
  /-- A shift count above 59 (40_shift.md R200, U6). Raised by the shifts; safe. -/
  | shiftCountAbove59
  deriving DecidableEq, Repr

/-- The state of the machine. -/
structure State where
  /-- The accumulator (10_state.md R20). -/
  a : Word
  /-- The Q register (R21). -/
  q : Word
  /-- The executive index registers (R25). -/
  bExec : BSet
  /-- The worker index registers (R25). -/
  bWork : BSet
  /-- P (R30): while an instruction runs, the address of the next one in sequence. -/
  pc : Addr
  /-- IFR, PLR, RIR and their hidden flags. -/
  ctl : Control
  /-- CSR, IASR, PECSR and their hidden flags. -/
  sel : ChannelSelect
  /-- The operator's switches. -/
  panel : Panel
  /-- `RUN` (R60). -/
  run : Bool
  /-- The interrupt lockout (R55, R61). -/
  lockout : Lockout
  /-- `PENDING` (R56), a set kept as a list without repeats (log 48). -/
  pending : List CondInt
  /-- The Repeat state (R58). -/
  rep : RepeatState
  /-- The channels (R57). -/
  chans : Vector Channel 24
  /-- The clocks' requests. -/
  clk : Clocks
  /-- Primary storage (20_memory.md R80). -/
  mem : Memory
  /-- The half-words whose parity bit is wrong: 2a the lower, 2a + 1 the upper half of address a (R62, 20_memory.md R125). -/
  parity : List Nat
  /-- The words the last instruction overwrote, with what they held before (20_memory.md R133, U4, log 27). -/
  overlap : List (Addr × Word)
  /-- Where the next instruction comes from. -/
  fetch : FetchSource
  /-- The instruction at an interrupt's fixed address has not finished, so RIR.IV is retained (60_exceptions.md R541 step 7). -/
  entryOpen : Bool
  /-- The signals sent, the latest first (log 38). -/
  outputs : List Signal
  /-- The script of the other agents (log 7). -/
  inputs : List Event
  /-- The installation. -/
  cfg : Config
  /-- How many free values have been taken (log 10). -/
  free : Nat
  deriving DecidableEq, Repr

def State.setA (s : State) (v : Word) : State := { s with a := v }

def State.setQ (s : State) (v : Word) : State := { s with q := v }

def State.setBExec (s : State) (v : BSet) : State := { s with bExec := v }

def State.setBWork (s : State) (v : BSet) : State := { s with bWork := v }

def State.setPc (s : State) (v : Addr) : State := { s with pc := v }

def State.setCtl (s : State) (v : Control) : State := { s with ctl := v }

def State.setSel (s : State) (v : ChannelSelect) : State := { s with sel := v }

def State.setPanel (s : State) (v : Panel) : State := { s with panel := v }

def State.setRun (s : State) (v : Bool) : State := { s with run := v }

def State.setLockout (s : State) (v : Lockout) : State := { s with lockout := v }

def State.setPending (s : State) (v : List CondInt) : State := { s with pending := v }

def State.setRep (s : State) (v : RepeatState) : State := { s with rep := v }

def State.setChans (s : State) (v : Vector Channel 24) : State := { s with chans := v }

def State.setClk (s : State) (v : Clocks) : State := { s with clk := v }

def State.setMem (s : State) (v : Memory) : State := { s with mem := v }

def State.setParity (s : State) (v : List Nat) : State := { s with parity := v }

def State.setOverlap (s : State) (v : List (Addr × Word)) : State := { s with overlap := v }

def State.setFetch (s : State) (v : FetchSource) : State := { s with fetch := v }

def State.setEntryOpen (s : State) (v : Bool) : State := { s with entryOpen := v }

def State.setOutputs (s : State) (v : List Signal) : State := { s with outputs := v }

def State.setInputs (s : State) (v : List Event) : State := { s with inputs := v }

def State.setCfg (s : State) (v : Config) : State := { s with cfg := v }

def State.setFree (s : State) (v : Nat) : State := { s with free := v }

/-- An index register set with every register zero. -/
def BSet.zero : BSet := ⟨0, 0, 0, 0, 0, 0, 0⟩

/-- A channel with nothing active and no signal up. -/
def Channel.idle : Channel := ⟨false, false, false, false, false, false, false, false, false, 0⟩

/-- The machine right after reset: master-cleared and stopped (70_reset_and_hazards.md R600, R601, R603). The values R601 calls
"any" are those of log 1, storage and its parity bits, all right, those of log 2, the switches and the installation those of log 9; that no clock request waits is log 55. -/
def State.reset : State where
  a := 0
  q := 0
  bExec := BSet.zero
  bWork := BSet.zero
  pc := 0
  ctl := { ifr := 0, ifrActive := false, ifrHold := false, newIfr := .settled, oldIfr := 0, reinit := false,
           plrUL := 0, plrLL := 0, rirIV := 0, rirActive := false }
  sel := { csr := 0, iasr := 0, pecsr := 0, useIasr := false, usePecsr := false }
  panel := { msr := 0, key1 := false, key2 := false, key3 := false, stopKey5 := false, stopKey6 := false,
             stopKey7 := false, bankMode := .continuous }
  run := false
  lockout := { locked := false, bySil := false, silTimer := 0 }
  pending := []
  rep := { active := false, j := 0, ybar := 0, first := false, word := none }
  chans := Vector.replicate 24 Channel.idle
  clk := { dayData := none, rtcTicks := 0 }
  mem := []
  parity := []
  overlap := []
  fetch := .program
  entryOpen := false
  outputs := []
  inputs := []
  cfg := Config.standard
  free := 0

end Sys2Proof.Machine
end

