-- ==== Sys2Proof/Machine/Ops.lean ====
section
/-! DEFINITION. The named operations over storage, registers, addresses, protection and interrupts that the meanings share. -/

namespace Sys2Proof.Machine

open Sys2Proof

/-- What a meaning answers. -/
abbrev Result := Host.Outcome State Fault Refusal

/-- What an operation inside a meaning answers: a value and the state to go on from, or the end of the instruction (an
interrupt taken, a fault, a refusal). -/
inductive Res (α : Type) where
  | ok (v : α) (s : State)
  | stop (o : Result)

/-- Goes on with the value, or ends the instruction (60_exceptions.md R540). -/
def Res.andThen {α : Type} (r : Res α) (k : α → State → Result) : Result :=
  match r with
  | .ok v s => k v s
  | .stop o => o

def Res.bind {α β : Type} (r : Res α) (k : α → State → Res β) : Res β :=
  match r with
  | .ok v s => k v s
  | .stop o => .stop o

/-! ## Free values (93_implementation_defined.md, log 10) -/

/-- The free choice the state takes next. -/
def freeChoice (s : State) : Bool := Config.freeBit s.free

/-- The free word the state takes next. -/
def freeValue (s : State) : Word := Config.freeWord s.free

/-- One free value has been taken. -/
def spend (s : State) : State := s.setFree (s.free + 1)

/-- A takes a free value. -/
def freeA (s : State) : State := spend (s.setA (freeValue s))

/-- Q takes a free value. -/
def freeQ (s : State) : State := spend (s.setQ (freeValue s))

/-! ## Storage (20_memory.md R80 to R87) -/

/-- The word at an address; an address that is not listed reads 0 (log 2). -/
def Memory.get : Memory → Nat → Word
  | [], _ => 0
  | (k, v) :: rest, a => if k = a then v else Memory.get rest a

/-- Lists a word at its place. -/
def Memory.put : Memory → Nat → Word → Memory
  | [], a, v => [(a, v)]
  | (k, w) :: rest, a, v =>
    if a < k then (a, v) :: (k, w) :: rest
    else if k = a then (a, v) :: rest
    else (k, w) :: Memory.put rest a v

/-- Takes an address off the list. -/
def Memory.drop : Memory → Nat → Memory
  | [], _ => []
  | (k, w) :: rest, a => if k = a then Memory.drop rest a else (k, w) :: Memory.drop rest a

/-- Writes a word and keeps the canonical form: a word that reads as an unlisted one is not listed. -/
def Memory.set (m : Memory) (a : Nat) (v : Word) : Memory :=
  if v = 0 then m.drop a else m.put a v

/-- The canonical form: addresses strictly rising, no word that reads as an unlisted one. -/
abbrev Memory.wf (m : Memory) : Prop :=
  m.Pairwise (fun c d => c.1 < d.1) ∧ ∀ c ∈ m, c.2 ≠ 0

/-- `MEM_WORDS` (00_scope.md R6). -/
def memWords (c : Config) : Nat := if c.largeStorage then 131072 else 65536

/-- The address names a fitted word (20_memory.md R83). -/
def installed (s : State) (a : Addr) : Bool := a.toNat < memWords s.cfg

/-- The word at an absolute address, `MemRead(a, 30)`. -/
def wordAt (s : State) (a : Addr) : Word := s.mem.get a.toNat

def lowerHalf (w : Word) : Half := w.extractLsb' 0 15

def upperHalf (w : Word) : Half := w.extractLsb' 15 15

/-- The word after a write of one part: a half-word write takes the low half of `v` and leaves the other half (R84). -/
def mergePart (p : Part) (old v : Word) : Word :=
  match p with
  | .whole => v
  | .lower => upperHalf old ++ lowerHalf v
  | .upper => lowerHalf v ++ lowerHalf old

/-! ### Parity (20_memory.md R125) -/

/-- The index of a half-word in the list of wrong parity bits. -/
def halfIndex (a : Addr) (upper : Bool) : Nat := 2 * a.toNat + upper.toNat

def halfBad (s : State) (a : Addr) (upper : Bool) : Bool := s.parity.contains (halfIndex a upper)

def wordBad (s : State) (a : Addr) : Bool := halfBad s a false || halfBad s a true

/-- A half-word is written with its parity bit right. -/
def mendHalf (p : List Nat) (a : Addr) (upper : Bool) : List Nat := p.filter (fun h => h != halfIndex a upper)

/-- A half-word's parity bit goes wrong. -/
def spoilHalf (p : List Nat) (a : Addr) (upper : Bool) : List Nat := halfIndex a upper :: mendHalf p a upper

/-- The parity bits after a write of one part (R84). -/
def mendPart (p : List Nat) (a : Addr) (part : Part) : List Nat :=
  match part with
  | .whole => mendHalf (mendHalf p a false) a true
  | .lower => mendHalf p a false
  | .upper => mendHalf p a true

/-- The test read of a half-word write checks the other half (R84). -/
def testReadBad (s : State) (a : Addr) (part : Part) : Bool :=
  match part with
  | .whole => false
  | .lower => halfBad s a true
  | .upper => halfBad s a false

/-- The storage bank of an address (R125, log 29). -/
def bankOf (s : State) (a : Addr) : BitVec 2 :=
  match s.panel.bankMode with
  | .continuous => a.extractLsb' 15 2
  | .oddEven => Config.oddEvenBank a

/-! ## What governs execution (10_state.md R26, R27, R38, R40, R41; 41_transfer.md R241) -/

/-- The IFR word that governs: the old one until a newly loaded one takes effect (R241). -/
def govIfr (s : State) : Word :=
  match s.ctl.newIfr with
  | .settled => s.ctl.ifr
  | .loading => s.ctl.oldIfr
  | .due => s.ctl.oldIfr

/-- Field f3 of the governing IFR (R38). -/
def protField (s : State) : BitVec 2 := (govIfr s).extractLsb' 21 2

/-- Guard mode is on (R38). -/
def guardOn (s : State) : Bool := s.ctl.ifrActive && (govIfr s).getLsbD 21

/-- Reads and jumps are limited (R38). -/
def readProtected (s : State) : Bool := s.ctl.ifrActive && protField s == 1#2

/-- Writes are limited (R38). -/
def writeProtected (s : State) : Bool := s.ctl.ifrActive && protField s != 0#2

/-- An address lies inside the limits of the PLR (R43). -/
def inside (s : State) (a : Addr) : Bool :=
  decide ((s.ctl.plrLL ++ 0#6 : BitVec (11 + 6)).toNat ≤ a.toNat) &&
    decide (a.toNat ≤ (s.ctl.plrUL ++ 63#6 : BitVec (11 + 6)).toNat)

/-- Which index registers a program works with: the set and the width (R26, R27). -/
structure BView where
  worker : Bool
  wide : Bool
  deriving DecidableEq, Repr

/-- The view in force (R26, R27, R41). -/
def bView (s : State) : BView where
  worker := s.ctl.ifrActive && (govIfr s).getLsbD 25
  wide := !s.ctl.ifrActive || (govIfr s).getLsbD 26

/-- The view the loaded IFR will give once it is in force. -/
def bViewNew (s : State) : BView where
  worker := s.ctl.ifr.getLsbD 25
  wide := s.ctl.ifr.getLsbD 26

/-! ## Index registers (10_state.md R25 to R28) -/

/-- A register with its physical width, as 17 bits; B0 is zero (R28). -/
def BSet.read (r : BSet) (i : BitVec 3) : Addr :=
  match i with
  | 1#3 => r.b1.setWidth 17
  | 2#3 => r.b2.setWidth 17
  | 3#3 => r.b3.setWidth 17
  | 4#3 => r.b4
  | 5#3 => r.b5
  | 6#3 => r.b6
  | 7#3 => r.b7
  | _ => 0

/-- A register written as far as its physical width goes; B0 is no register (R28). -/
def BSet.write (r : BSet) (i : BitVec 3) (v : Addr) : BSet :=
  match i with
  | 1#3 => { r with b1 := v.setWidth 15 }
  | 2#3 => { r with b2 := v.setWidth 15 }
  | 3#3 => { r with b3 := v.setWidth 15 }
  | 4#3 => { r with b4 := v }
  | 5#3 => { r with b5 := v }
  | 6#3 => { r with b6 := v }
  | 7#3 => { r with b7 := v }
  | _ => r

/-- `width(i)` (R27). -/
def bWidth (c : BView) (i : BitVec 3) : Nat := if c.wide && decide (4 ≤ i.toNat) then 17 else 15

/-- A value as far as a width of 15 or 17 goes. -/
def cutTo (w : Nat) (v : Addr) : Addr := if w = 17 then v else (v.setWidth 15).setWidth 17

def bSetOf (c : BView) (s : State) : BSet := if c.worker then s.bWork else s.bExec

def putBSet (c : BView) (r : BSet) (s : State) : State := if c.worker then s.setBWork r else s.setBExec r

/-- `B[i]` as a view gives it (R27). -/
def bReadIn (c : BView) (i : BitVec 3) (s : State) : Addr := cutTo (bWidth c i) ((bSetOf c s).read i)

/-- `B[i] <- v` as a view gives it: in 15-bit operation the two high bits are cleared (R27, D2). -/
def bWriteIn (c : BView) (i : BitVec 3) (v : Addr) (s : State) : State :=
  putBSet c ((bSetOf c s).write i (cutTo (bWidth c i) v)) s

/-- All physical bits of a register of the view's set are written (47_jump.md R416, 48_sequence.md R431). -/
def bWritePhysical (c : BView) (i : BitVec 3) (v : Addr) (s : State) : State :=
  putBSet c ((bSetOf c s).write i v) s

/-- `B[i]` of the active set at its active width. -/
def bRead (i : BitVec 3) (s : State) : Addr := bReadIn (bView s) i s

/-! ## Addresses (30_encoding.md R150, 20_memory.md R93 to R97, R110) -/

/-- The end-around sum of R150: the carry out of bit n − 1 comes back at bit 0. -/
def endAround (n x : Nat) : Nat := x % 2 ^ n + x / 2 ^ n

/-- The width an instruction with this b designator forms `ybar` with (R150). -/
def ybarWidth (b : BitVec 3) (s : State) : Nat := bWidth (bView s) b

/-- `y + (B_b)` (R150). -/
def indexSum (b : BitVec 3) (y : BitVec 15) (s : State) : Addr :=
  BitVec.ofNat 17 (endAround (ybarWidth b s) (y.toNat + (bRead b s).toNat))

/-- `ybar`: the index sum, or the stepped value of a Repeat sequence (48_sequence.md R439). -/
def effective (b : BitVec 3) (y : BitVec 15) (s : State) : Addr :=
  if s.rep.active then cutTo (ybarWidth b s) s.rep.ybar else indexSum b y s

/-- `Ri(b)` (20_memory.md R93, R95). -/
def relIndex (b : BitVec 3) (s : State) : Addr :=
  if !s.ctl.rirActive then s.panel.msr ++ 0#15
  else if s.ctl.ifrActive && (govIfr s).getLsbD 27 && decide (4 ≤ b.toNat) then s.ctl.plrLL ++ 0#6
  else s.ctl.rirIV ++ 0#6

/-- `fixed(n)`, and `esi(e)` (20_memory.md R110). -/
def fixedAddr (s : State) (n : BitVec 15) : Addr := s.panel.msr ++ n

/-- `rel(pc)`: P minus RIR, or 0 where P is below it (10_state.md R32). -/
def relPc (s : State) : Addr :=
  let base : Addr := s.ctl.rirIV ++ 0#6
  if base.toNat ≤ s.pc.toNat then s.pc - base else 0

/-- The newly loaded IFR takes effect (41_transfer.md R241). -/
def activate (s : State) : State := s.setCtl { s.ctl with ifrActive := true, newIfr := .settled }

/-- An absolute operand address and whether the limits apply to it. -/
structure OpAddr where
  base : Addr
  checked : Bool
  deriving DecidableEq, Repr

/-- A conversion from relative to absolute address (20_memory.md R93, R94). In the instruction after 7761 the first one uses
the new RIR for every b, is not checked, and puts the new IFR into effect (41_transfer.md R241). That the later words of its
operand are not checked either is the model's choice (log 56). -/
def convert (b : BitVec 3) (r : Addr) (s : State) : OpAddr × State :=
  match s.ctl.newIfr with
  | .due => (⟨r + (s.ctl.rirIV ++ 0#6), false⟩, activate s)
  | .loading => (⟨r + relIndex b s, true⟩, s)
  | .settled => (⟨r + relIndex b s, true⟩, s)

/-- The address of word n of a multi-word operand (20_memory.md R86, D9). -/
def OpAddr.word (o : OpAddr) (n : Nat) : Addr := o.base + BitVec.ofNat 17 n

/-! ## IFR fields the hardware writes (10_state.md R36, R37) -/

def withF1 (w : Word) (v : Addr) : Word := w.extractLsb' 17 13 ++ v

def withF2 (w : Word) (j : BitVec 3) : Word := w.extractLsb' 21 9 ++ j ++ w.extractLsb' 0 18

def withF9 (w : Word) (v : Bool) : Word := BitVec.ofBool v ++ w.extractLsb' 0 29

def withF5 (w : Word) (v : Bool) : Word := w.extractLsb' 25 5 ++ BitVec.ofBool v ++ w.extractLsb' 0 24

def withF4 (w : Word) (v : Bool) : Word := w.extractLsb' 24 6 ++ BitVec.ofBool v ++ w.extractLsb' 0 23

def setIfr (w : Word) (s : State) : State := s.setCtl { s.ctl with ifr := w }

/-- The hardware does not write f1: the IFR is held, a Repeat sequence runs, or the loaded f9 is 1 (10_state.md R37,
48_sequence.md R438, 41_transfer.md R241). -/
def f1Inhibited (s : State) : Bool := s.ctl.ifrHold || s.rep.active || s.ctl.reinit

/-- Step 7 of an instruction: f1 is written (30_encoding.md R190, 10_state.md R36). -/
def capture (v : Addr) (s : State) : State :=
  if f1Inhibited s then s else setIfr (withF1 s.ctl.ifr v) s

/-- f1 of a non-jump instruction that uses `ybar` neither as data nor as an address: either of the two values R36 names
(log 30). -/
def captureUnused (b : BitVec 3) (y : BitVec 15) (s : State) : State :=
  let r := effective b y s
  if f1Inhibited s then s
  else spend (capture (if freeChoice s then r else (convert b r s).1.base) s)

/-! ## Interrupt entry (60_exceptions.md R523, R540, R541) -/

/-- The fixed location of a conditional interrupt (R523). -/
def CondInt.location : CondInt → BitVec 15
  | .bcwParity _ => 0o5#15
  | .ioDataParity _ => 0o6#15
  | .powerLoss => 0o2#15
  | .externalEsi _ => 0o20#15
  | .inputMonitorEsi _ => 0o21#15
  | .outputMonitorEsi _ => 0o22#15
  | .externalIsi _ => 0o24#15
  | .inputMonitorIsi _ => 0o25#15
  | .outputMonitorIsi _ => 0o26#15
  | .dayClock => 0o15#15
  | .realTimeClock => 0o14#15
  | .sync0 => 0o12#15
  | .sync1 => 0o13#15

/-- The fixed location of an unconditional interrupt (R523). -/
def UncondInt.location (c : Config) : UncondInt → BitVec 15
  | .illegalInstruction => 0#15
  | .programProtection => 1#15
  | .timeout => 1#15
  | .memoryParity bank =>
    match bank with
    | 0#2 => 0o3#15
    | 1#2 => 0o4#15
    | 2#2 => 0o23#15
    | _ => 0o27#15
  | .executiveReturn => 0o7#15
  | .testAndSet => 0o30#15 + c.tasVector.setWidth 15
  | .fpUnderflow => 0o10#15
  | .fpOverflow => 0o11#15

def Interrupt.location (c : Config) : Interrupt → BitVec 15
  | .cond x => x.location
  | .uncond x => x.location c

/-- The channel registers after the entry (10_state.md R49, R541 step 5). -/
def enterSelect (x : Interrupt) (sel : ChannelSelect) : ChannelSelect :=
  let onIasr (c : Fin 24) : ChannelSelect := { sel with iasr := BitVec.ofNat 5 c.val, useIasr := true, usePecsr := false }
  let onPecsr (c : Fin 24) : ChannelSelect := { sel with pecsr := BitVec.ofNat 5 c.val, useIasr := false, usePecsr := true }
  let onNone : ChannelSelect := { sel with useIasr := false, usePecsr := false }
  match x with
  | .uncond _ => onNone
  | .cond (.bcwParity c) => onPecsr c
  | .cond (.ioDataParity c) => onPecsr c
  | .cond (.externalEsi c) => onIasr c
  | .cond (.inputMonitorEsi c) => onIasr c
  | .cond (.outputMonitorEsi c) => onIasr c
  | .cond (.externalIsi c) => onIasr c
  | .cond (.inputMonitorIsi c) => onIasr c
  | .cond (.outputMonitorIsi c) => onIasr c
  | .cond .powerLoss => onNone
  | .cond .dayClock => onNone
  | .cond .realTimeClock => onNone
  | .cond .sync0 => onNone
  | .cond .sync1 => onNone

/-- The IFR fields f9, f2 and f1 after an interrupt inside a Repeat sequence (48_sequence.md R440). `addr` is the address an
unconditional interrupt occurred on. Between a reinitiating 7761 and the first re-execution f1 stays as it was read from memory
(case (1) of R440). For an interrupt that names no address (Timeout) f1 is as it was before the repeated instruction was
fetched, and free afterwards (log 34). -/
def enterRepeatIfr (x : Interrupt) (addr : Option Addr) (s : State) : State :=
  let w := withF2 (withF9 s.ctl.ifr true) s.rep.j
  match x with
  | .cond _ => setIfr (withF1 w s.rep.ybar) s
  | .uncond _ =>
    match addr, s.rep.word with
    | some a, some _ => setIfr (withF1 w a) s
    | some a, none => setIfr (if s.rep.first then withF1 w a else w) s
    | none, none => setIfr w s
    | none, some _ => spend (setIfr (withF1 w ((freeValue s).setWidth 17)) s)

/-- Step 1 of the entry: P goes back to the repeated instruction and the IFR records the Repeat; outside a Repeat sequence f9
is cleared. A held IFR is not touched (R541, R440, D5). -/
def enterRecord (x : Interrupt) (addr : Option Addr) (s : State) : State :=
  if s.rep.active then
    let s1 := if s.rep.word.isSome then s.setPc (s.pc - 1) else s
    if s.ctl.ifrHold then s1 else enterRepeatIfr x addr s1
  else if s.ctl.ifrHold || s.ctl.reinit then s
  else setIfr (withF9 s.ctl.ifr false) s

/-- TAKING AN INTERRUPT, steps 1 to 5 of `enter(X)` (R541): P is kept, the IFR is held, IFR and RIR are deactivated, the lockout is
set, and the next instruction is the one at the fixed address (step 6, log 5). -/
def enter (x : Interrupt) (addr : Option Addr) (s : State) : State :=
  let s1 := enterRecord x addr s
  let s2 := s1.setCtl { s1.ctl with ifrHold := true, ifrActive := false, rirActive := false, newIfr := .settled, reinit := false }
  let s3 := s2.setRep { s2.rep with active := false, word := none }
  let s4 := s3.setLockout { locked := true, bySil := false, silTimer := 0 }
  let s5 := s4.setSel (enterSelect x s4.sel)
  (s5.setFetch (.fixed (x.location s.cfg))).setEntryOpen true

/-- `raise X`: the instruction ends and the interrupt is taken (R540). -/
def raise (x : UncondInt) (addr : Option Addr) (s : State) : Result := .next (enter (.uncond x) addr s)

/-- Program Protection at an address; a non-jump instruction leaves the offending address in f1 (20_memory.md R104,
60_exceptions.md R550, log 31). -/
def protection (a : Addr) (report : Bool) (s : State) : Result :=
  raise .programProtection (some a) (if report then capture a s else s)

/-- Memory Parity at an address: P is the next instruction's address or this one's (60_exceptions.md R557, U3, log 28). For the
target of an Execute Remote "this one's" is the address of the 7737, the model's choice (log 28). -/
def parityStop (a : Addr) (s : State) : Result :=
  let x := UncondInt.memoryParity (bankOf s a)
  if s.rep.active || s.entryOpen then raise x (some a) s
  else raise x (some a) (spend (if freeChoice s then s else s.setPc (s.pc - 1)))

/-! ## CPU references (20_memory.md R84, R100, R101, R125) -/

/-- An unprotected read of one word by the CPU. -/
def cpuRead (a : Addr) (s : State) : Res Word :=
  if installed s a then
    if wordBad s a then .stop (parityStop a s) else .ok (wordAt s a) s
  else .stop (.fault .storageNotInstalled)

/-- Storage after a write of one part of a word by the CPU; the overwritten word is remembered (U4). -/
def storeWord (a : Addr) (p : Part) (v : Word) (s : State) : State :=
  let old := wordAt s a
  ((s.setMem (s.mem.set a.toNat (mergePart p old v))).setParity (mendPart s.parity a p)).setOverlap ((a, old) :: s.overlap)

/-- An unprotected write of one part of a word by the CPU, with the test read of the other half; where that finds wrong parity the part
has been written, the model's choice (R557, log 28). -/
def cpuWrite (a : Addr) (p : Part) (v : Word) (s : State) : Res Unit :=
  if installed s a then
    if testReadBad s a p then .stop (parityStop a (storeWord a p v s)) else .ok () (storeWord a p v s)
  else .stop (.fault .storageNotInstalled)

/-- `RdN`: the protected read of word n of an operand (41_transfer.md R220). -/
def readAt (o : OpAddr) (report : Bool) (n : Nat) (s : State) : Res Word :=
  let a := o.word n
  if o.checked && readProtected s && !inside s a then .stop (protection a report s) else cpuRead a s

/-- `WrN`: the protected write of word n of an operand. `onDeny` is what the instruction leaves when the write is denied
(20_memory.md R104, U2). -/
def writeAt (o : OpAddr) (report : Bool) (n : Nat) (p : Part) (v : Word) (onDeny : State → State) (s : State) : Res Unit :=
  let a := o.word n
  if o.checked && writeProtected s && !inside s a then .stop (protection a report (onDeny s)) else cpuWrite a p v s

/-! ## Sequence (30_encoding.md R160; 47_jump.md R400 to R405) -/

/-- `skip` when the condition holds. -/
def skipIf (c : Bool) (s : State) : State := if c then s.setPc (s.pc + 1) else s

/-- `IFR.f1[m−1:0]`, what `REPEAT_YBAR` is resumed with when P is loaded with the address of the repeated instruction N; m is the
width that the b designator of N gives (48_sequence.md R433, R441). It is taken from the word that stands there then (log 59). -/
def resumedYbar (a : Addr) (s : State) : Addr :=
  cutTo (ybarWidth ((wordAt s a).extractLsb' 15 3) s) (s.ctl.ifr.extractLsb' 0 17)

/-- `pc <- a`. After a 7761 that loaded f9 = 1 this resumes the interrupted Repeat sequence (48_sequence.md R441). -/
def loadPc (a : Addr) (s : State) : State :=
  let s1 := s.setPc a
  if s.ctl.reinit then
    (s1.setRep { active := true, j := s.ctl.ifr.extractLsb' 18 3, ybar := resumedYbar a s, first := false,
                 word := none }).setCtl { s.ctl with reinit := false }
  else s1

/-- `Jump(t)` with the protection check of the target; `onDeny` as for a denied write, `after` what follows the loading of P
(R400, R403, U2). -/
def jumpTo (b : BitVec 3) (t : Addr) (onDeny after : State → State) (s : State) : Result :=
  let (o, s1) := convert b t s
  if o.checked && readProtected s1 && !inside s1 o.base then protection o.base false (onDeny s1)
  else .next (after (loadPc o.base s1))

/-- `ReturnJump(t)`: the return address goes into the lower half of the word at t and execution goes on after it (R405). Directly
after 7761 neither address is limit-checked, the second because it is the successor of the first and no conversion of its own:
the model's choice (log 56). -/
def returnJump (b : BitVec 3) (t : Addr) (after : State → State) (s : State) : Result :=
  let (o, s1) := convert b t s
  if o.checked && writeProtected s1 && !inside s1 o.base then protection o.base false s1
  else if o.checked && readProtected s1 && !inside s1 (o.base + 1) then protection (o.base + 1) false s1
  else (cpuWrite o.base .lower ((relPc s1).setWidth 30) s1).andThen fun _ s2 => .next (after (loadPc (o.base + 1) s2))

/-- `Stop()`: inhibited in guard mode (R404). -/
def stopCpu (s : State) : State := if guardOn s then s else s.setRun false

/-- `ReleaseLockout()` (R401). -/
def releaseLockout (s : State) : State :=
  (s.setLockout { locked := false, bySil := false, silTimer := 0 }).setSel { s.sel with useIasr := false, usePecsr := false }

/-- `SetLockout()` (R405). -/
def setLockout (s : State) : State :=
  if s.lockout.locked then s else s.setLockout { locked := true, bySil := true, silTimer := 0 }

/-! ## Privilege and channels (30_encoding.md R172; 10_state.md R46 to R49) -/

/-- A privileged instruction in guard mode is an Illegal Instruction before anything else (R172, 60_exceptions.md R551). -/
def privileged (s : State) (k : Result) : Result :=
  if guardOn s then raise .illegalInstruction none s else k

/-- `N_CHANNELS`. -/
def channelCount (c : Config) : Nat := 12 + 4 * c.channelGroups.val

def fitted (cfg : Config) (c : Fin 24) : Bool := c.val < channelCount cfg

/-- The channel of a channel number, where one is fitted (U12). -/
def channelOf (cfg : Config) (n : BitVec 5) : Option (Fin 24) :=
  if h : n.toNat < 24 then (if fitted cfg ⟨n.toNat, h⟩ then some ⟨n.toNat, h⟩ else none) else none

/-- `chan()` (R49). -/
def chanNow (s : State) : BitVec 5 := if s.sel.useIasr then s.sel.iasr else s.sel.csr

/-- `chan_no()` (R49). -/
def chanNo (s : State) : BitVec 5 :=
  if s.sel.useIasr then s.sel.iasr else if s.sel.usePecsr then s.sel.pecsr else 0o37#5

/-- The channel an instruction names, or the stuck case U12. -/
def withChannel (n : BitVec 5) (s : State) : Res (Fin 24) :=
  match channelOf s.cfg n with
  | some c => .ok c s
  | none => .stop (.fault .channelNotFitted)

def chan (s : State) (c : Fin 24) : Channel := s.chans[c]

def putChan (c : Fin 24) (v : Channel) (s : State) : State := s.setChans (s.chans.set c v)

/-- A signal is sent. -/
def emit (x : Signal) (s : State) : State := s.setOutputs (x :: s.outputs)

end Sys2Proof.Machine
end

