-- ==== Sys2Proof/Machine/Operands.lean ====
section
/-! DEFINITION. Operand forms: the read class (Table 4-1), the store class, the Replace class (Table 4-2), double-word and
jump operands (30_encoding.md R155 to R158). -/

namespace Sys2Proof.Machine

open Sys2Proof

/-! ## AQ and halves -/

/-- `AQ` (10_state.md R22). -/
def aq (s : State) : DWord := s.a ++ s.q

/-- `AQ <- d`: a write of AQ writes both registers (R22). -/
def setAq (d : DWord) (s : State) : State := (s.setA (d.extractLsb' 30 30)).setQ (d.extractLsb' 0 30)

/-- Both registers take free values. -/
def freeAq (s : State) : State := freeQ (freeA s)

/-- `sext_15` (00_scope.md R9). -/
def sextHalf (h : Half) : Word := h.signExtend 30

def zextHalf (h : Half) : Word := h.setWidth 30

/-- What the read class takes from a storage word (Table 4-1, R155). -/
def selectPart (k : BitVec 3) (w : Word) : Word :=
  match k with
  | 1#3 => zextHalf (lowerHalf w)
  | 2#3 => zextHalf (upperHalf w)
  | 5#3 => sextHalf (lowerHalf w)
  | 6#3 => sextHalf (upperHalf w)
  | _ => w

/-- The part of a word that the store and Replace classes write (R156, Table 4-2). -/
def partOf (k : BitVec 3) : Part :=
  match k with
  | 1#3 => .lower
  | 2#3 => .upper
  | 5#3 => .lower
  | 6#3 => .upper
  | _ => .whole

/-! ## Addresses of operands -/

/-- The address of a storage operand, with step 7's write of f1 where the instruction is no jump (30_encoding.md R190). -/
def operandAddr (cap : Bool) (b : BitVec 3) (y : BitVec 15) (s : State) : OpAddr × State :=
  let (o, s1) := convert b (effective b y s) s
  (o, if cap then capture o.base s1 else s1)

/-- `ybar` used as data, with step 7's write of f1 (30_encoding.md R153, 10_state.md R36). -/
def dataOperand (cap : Bool) (b : BitVec 3) (y : BitVec 15) (s : State) : Res Addr :=
  let r := effective b y s
  .ok r (if cap then capture r s else s)

/-! ## Read class -/

/-- The operand `Y` of a read-class instruction (Table 4-1, R155). `cap` is false for a jump instruction, whose f1 is P. -/
def readOperand (cap : Bool) (k b : BitVec 3) (y : BitVec 15) (s : State) : Res Word :=
  match k with
  | 0#3 => (dataOperand cap b y s).bind fun r s1 => .ok (r.setWidth 30) s1
  | 4#3 => (dataOperand cap b y s).bind fun r s1 => .ok (sextHalf (r.setWidth 15)) s1
  | 7#3 => .ok s.a (if cap then captureUnused b y s else s)
  | _ =>
    let (o, s1) := operandAddr cap b y s
    (readAt o cap 0 s1).bind fun w s2 => .ok (selectPart k w) s2

/-- One word at `ybar`, for the 77 words that name it. -/
def readWord (b : BitVec 3) (y : BitVec 15) (s : State) : Res Word :=
  let (o, s1) := operandAddr true b y s
  readAt o true 0 s1

/-- The 60-bit operand at `ybar` and its successor (20_memory.md R85). -/
def readDouble (b : BitVec 3) (y : BitVec 15) (s : State) : Res DWord :=
  let (o, s1) := operandAddr true b y s
  (readAt o true 0 s1).bind fun w0 s2 => (readAt o true 1 s2).bind fun w1 s3 => .ok (w0 ++ w1) s3

/-- Successive words of an operand in rising order, from word n on (20_memory.md R87). -/
def readWords (o : OpAddr) (n : Nat) : Nat → State → Res (List Word)
  | 0, s => .ok [] s
  | m + 1, s => (readAt o true n s).bind fun w s1 => (readWords o (n + 1) m s1).bind fun ws s2 => .ok (w :: ws) s2

/-! ## Store class -/

/-- A store of a value by the common pattern: k = 5, 6 and 7 store the ones complement (R156). -/
def storeOperand (k b : BitVec 3) (y : BitVec 15) (v : Word) (onDeny : State → State) (s : State) : Res Unit :=
  let (o, s1) := operandAddr true b y s
  writeAt o true 0 (partOf k) (if k.getLsbD 2 then ~~~v else v) onDeny s1

/-- A store of a whole word at `ybar`. -/
def storeWhole (b : BitVec 3) (y : BitVec 15) (v : Word) (s : State) : Res Unit :=
  let (o, s1) := operandAddr true b y s
  writeAt o true 0 .whole v id s1

/-- Successive words are written in rising order, from word n on (20_memory.md R87). -/
def writeWords (o : OpAddr) (p : Part) (n : Nat) : List Word → State → Res Unit
  | [], s => .ok () s
  | w :: ws, s => (writeAt o true n p w id s).bind fun _ s1 => writeWords o p (n + 1) ws s1

/-! ## Replace class -/

/-- A is as before or as the instruction leaves it: a denied store of an instruction that also writes A (U2, log 17). -/
def eitherA (old : Word) (s : State) : State := spend (if freeChoice s then s else s.setA old)

/-- AQ is as before or as the instruction leaves it (U2, log 17). -/
def eitherAq (old : DWord) (s : State) : State := spend (if freeChoice s then s else setAq old s)

/-- Where a Replace-class result is stored: at the operand's address, or under a Repeat with j of 4 to 7 displaced by an index
register (48_sequence.md R433, R434). -/
def replaceAddr (o : OpAddr) (b : BitVec 3) (s : State) : OpAddr × State :=
  if s.rep.active && s.rep.j.getLsbD 2 then
    let m := ybarWidth b s
    convert b (cutTo m (cutTo m s.rep.ybar + bRead s.cfg.repeatStoreB s)) s
  else (o, s)

/-- The Replace class: the operand is read, the result is kept in A and stored (R157). In the instruction after 7761 the store uses
the operand's own conversion again, unchecked, which is the model's choice (log 58). -/
def replaceOperand (k b : BitVec 3) (y : BitVec 15) (f : State → Word → Word) (s : State) : Res Unit :=
  if replaceK k then
    let (o, s1) := operandAddr true b y s
    (readAt o true 0 s1).bind fun w s2 =>
      let r := f s2 (selectPart k w)
      let (o', s3) := replaceAddr o b s2
      writeAt o' true 0 (partOf k) r (eitherA s2.a) (s3.setA r)
  else .stop (.refused .forbiddenDesignator)

/-! ## Jump operands -/

/-- The operand of a jump instruction: f1 takes P whether or not the jump is taken (10_state.md R36 item 2). -/
def jumpOperand (k b : BitVec 3) (y : BitVec 15) (s : State) : Res Word :=
  readOperand false k b y (capture s.pc s)

/-- `JumpRel(k)`: the relative target in the operand, 15 or 17 bits (R158, D15). -/
def jumpRel (k : BitVec 3) (v : Word) (s : State) : Addr :=
  match k with
  | 0#3 => v.setWidth 17
  | 3#3 => if (bView s).wide then v.setWidth 17 else (lowerHalf v).setWidth 17
  | 7#3 => if (bView s).wide then v.setWidth 17 else (lowerHalf v).setWidth 17
  | _ => (lowerHalf v).setWidth 17

/-- The relative target of the channel jumps (49_io.md R463). -/
def channelJumpOperand (kh : BitVec 2) (b : BitVec 3) (y : BitVec 15) (s : State) : Res Addr :=
  let s1 := capture s.pc s
  match kh with
  | 0#2 => dataOperand false b y s1
  | 2#2 =>
    let (o, s2) := operandAddr false b y s1
    (readAt o false 0 s2).bind fun w s3 => .ok ((upperHalf w).setWidth 17) s3
  | _ =>
    let (o, s2) := operandAddr false b y s1
    (readAt o false 0 s2).bind fun w s3 => .ok ((lowerHalf w).setWidth 17) s3

end Sys2Proof.Machine
end

