-- ==== Sys2Proof/Machine/Flags.lean ====
section
/-! DEFINITION. Skip and jump conditions (Table 3-1, 30_encoding.md R161 to R163) and the decimal designators of the IFR
(44_arith_decimal.md R324, R330). Every condition is on the final contents of the registers (R160). -/

namespace Sys2Proof.Machine

open Sys2Proof

/-- `SkipNormal(j)` (R161). -/
def skipNormal (j : BitVec 3) (s : State) : Bool :=
  match j with
  | 0#3 => false
  | 1#3 => true
  | 2#3 => !s.q.msb
  | 3#3 => s.q.msb
  | 4#3 => s.a == 0
  | 5#3 => s.a != 0
  | 6#3 => !s.a.msb
  | _ => s.a.msb

/-- An instruction with the normal j ends: the skip is on the final registers. -/
def endNormal (j : BitVec 3) (s : State) : Result := .next (skipIf (skipNormal j s) s)

/-- The 26/27 column, with A and Q exchanged (R163). -/
def skipQ (j : BitVec 3) (s : State) : Bool :=
  match j with
  | 0#3 => false
  | 1#3 => true
  | 2#3 => !s.a.msb
  | 3#3 => s.a.msb
  | 4#3 => s.q == 0
  | 5#3 => s.q != 0
  | 6#3 => !s.q.msb
  | _ => s.q.msb

/-- The 04 column: algebraic order of the patterns, −0 just below +0 (46_comparison.md R381, R382). -/
def skipCompare (j : BitVec 3) (y : Word) (s : State) : Bool :=
  match j with
  | 0#3 => false
  | 1#3 => true
  | 2#3 => y.sle s.q
  | 3#3 => s.q.slt y
  | 4#3 => s.a.slt y && y.sle s.q
  | 5#3 => s.q.slt y || y.sle s.a
  | 6#3 => y.sle s.a
  | _ => s.a.slt y

/-- The 43 column, on the difference `t` (R383). -/
def skipMasked (j : BitVec 3) (t : Word) (s : State) : Bool :=
  match j with
  | 0#3 => false
  | 1#3 => true
  | 2#3 => !s.q.msb
  | 3#3 => s.q.msb
  | 4#3 => t == 0
  | 5#3 => t != 0
  | 6#3 => !t.msb
  | _ => t.msb

/-- How many ones a word has. -/
def onesIn (w : Word) : Nat := (List.range 30).foldl (fun n i => n + (w.getLsbD i).toNat) 0

/-- `SkipLP(j)`, the 40/44 column (45_logical.md R366). -/
def skipLp (j : BitVec 3) (s : State) : Bool :=
  match j with
  | 0#3 => false
  | 1#3 => true
  | 2#3 => onesIn s.a % 2 == 0
  | 3#3 => onesIn s.a % 2 == 1
  | 4#3 => s.a == 0
  | 5#3 => s.a != 0
  | 6#3 => !s.a.msb
  | _ => s.a.msb

/-- The product does not fit in Q with its sign (42_arith_integer.md R269). -/
def overflow30 (s : State) : Bool := s.a != (if s.q.msb then BitVec.allOnes 30 else 0)

/-- The product's magnitude needs more than 30 bits (R269). -/
def overflow31 (s : State) : Bool := s.a != 0 && s.a != BitVec.allOnes 30

/-- The 22 column (R269). -/
def skipMultiply (j : BitVec 3) (s : State) : Bool :=
  match j with
  | 0#3 => false
  | 1#3 => true
  | 2#3 => !overflow30 s
  | 3#3 => overflow30 s
  | 4#3 => !overflow31 s
  | 5#3 => overflow31 s
  | 6#3 => true
  | _ => false

/-- The 23 column, on the sensed remainder (R276). -/
def skipDivide (j : BitVec 3) (ovf : Bool) (sensedA : Word) : Bool :=
  match j with
  | 0#3 => false
  | 1#3 => true
  | 2#3 => ovf
  | 3#3 => !ovf
  | 4#3 => sensedA == 0
  | 5#3 => sensedA != 0
  | 6#3 => !sensedA.msb
  | _ => sensedA.msb

/-- `JumpCond(j)`, the 60/64 column (47_jump.md R402). -/
def jumpCond (j : BitVec 3) (s : State) : Bool :=
  match j with
  | 0#3 => false
  | 1#3 => true
  | 2#3 => !s.q.msb
  | 3#3 => s.q.msb
  | 4#3 => s.a == 0
  | 5#3 => s.a != 0
  | 6#3 => !s.a.msb
  | _ => s.a.msb

/-- `jump(j)` of the manual jumps (R403). -/
def manualJump (j : BitVec 3) (s : State) : Bool :=
  match j with
  | 1#3 => s.panel.key1
  | 2#3 => s.panel.key2
  | 3#3 => s.panel.key3
  | _ => true

/-- `stop(j)` of the manual jumps (R403). -/
def manualStop (j : BitVec 3) (s : State) : Bool :=
  match j with
  | 4#3 => true
  | 5#3 => s.panel.stopKey5
  | 6#3 => s.panel.stopKey6
  | 7#3 => s.panel.stopKey7
  | _ => false

/-- The end-off carry designator, bit 24 of the IFR (10_state.md R39). -/
def carryFlag (s : State) : Bool := s.ctl.ifr.getLsbD 24

/-- The end-off borrow designator, bit 23 of the IFR (R39). -/
def borrowFlag (s : State) : Bool := s.ctl.ifr.getLsbD 23

/-- Writes f5; it is written even while the IFR is held (44_arith_decimal.md R324). -/
def setCarry (v : Bool) (s : State) : State := setIfr (withF5 s.ctl.ifr v) s

/-- Writes f4; it is written even while the IFR is held (R324). -/
def setBorrow (v : Bool) (s : State) : State := setIfr (withF4 s.ctl.ifr v) s

/-- The decimal overflow designator of 7710 (R330, `DEC_OVF_SOURCE`). -/
def decimalOverflow (s : State) : Bool :=
  match s.cfg.decOvf with
  | .f4OrF5 => carryFlag s || borrowFlag s
  | .f5Only => carryFlag s
  | .f4Only => borrowFlag s

end Sys2Proof.Machine
end

