-- ==== Sys2Proof/Machine/Arith.lean ====
section
/-! DEFINITION. Ones-complement arithmetic (42_arith_integer.md R261 to R264), the shifts of 40_shift.md R211, and the decimal and
floating-point operands of 44_arith_decimal.md and 43_arith_float.md. -/

namespace Sys2Proof.Machine

open Sys2Proof

/-! ## Integers -/

/-- `add30`, `add60` (R262, R264): a sum of exactly 2^w − 1 or more drops 2^w − 1. -/
def onesAdd {w : Nat} (a b : BitVec w) : BitVec w :=
  let m := 2 ^ w - 1
  let n := a.toNat + b.toNat
  BitVec.ofNat w (if n < m then n else n - m)

/-- `sub30`, `sub60` (R263, R264): end-around borrow. -/
def onesSub {w : Nat} (a b : BitVec w) : BitVec w :=
  BitVec.ofNat w (if b.toNat ≤ a.toNat then a.toNat - b.toNat else a.toNat + (2 ^ w - 1) - b.toNat)

/-- The magnitude of a ones-complement pattern, `|val(x)|` (R261). -/
def magnitude {w : Nat} (x : BitVec w) : BitVec w := if x.msb then ~~~x else x

/-- The product of 22: a product of unlike signs is complemented, a zero product too (R268, D22). -/
def product (q y : Word) : DWord :=
  let p : DWord := BitVec.ofNat 60 ((magnitude q).toNat * (magnitude y).toNat)
  if q.msb == y.msb then p else ~~~p

/-! ## Shifts (40_shift.md R211) -/

/-- `sra`: right shift with sign fill. -/
def shiftRightSign {w : Nat} (r : BitVec w) (n : Nat) : BitVec w := r.sshiftRight n

/-- `srl`: right shift with zero fill. -/
def shiftRightZero {w : Nat} (r : BitVec w) (n : Nat) : BitVec w := r >>> n

/-- `rol`: circular left shift. -/
def shiftLeftAround {w : Nat} (r : BitVec w) (n : Nat) : BitVec w :=
  let m := n % w
  BitVec.ofNat w (r.toNat * 2 ^ m % 2 ^ w + r.toNat / 2 ^ (w - m))

/-- The loop of 7730: the shifted word and the count (R210). The first argument is how many more shifts there may be. -/
def scaleLoop : Nat → Word → Nat → Word × Nat
  | 0, a, c => (a, c)
  | n + 1, a, c => if a.getLsbD 29 == a.getLsbD 28 then scaleLoop n (shiftLeftAround a 1) (c + 1) else (a, c)

/-! ## Decimal operands (44_arith_decimal.md R320 to R323) -/

/-- The digit with i digits to its right. -/
def digitAt (x : DWord) (i : Nat) : Nat := (x.extractLsb' (6 * i) 4).toNat

/-- `mag(X)` (R322), of the lowest n digits. -/
def decMagOf (x : DWord) : Nat → Nat
  | 0 => 0
  | n + 1 => decMagOf x n + digitAt x n * 10 ^ n

/-- `mag(X)` (R322). -/
def decMag (x : DWord) : Nat := decMagOf x 10

/-- `sgn(X)`: true is plus (R322). -/
def decPlus (x : DWord) : Bool := x.getLsbD 4

/-- Every digit is 0 to 9 (R321). -/
def decValid (x : DWord) : Bool := (List.range 10).all fun i => digitAt x i ≤ 9

/-- One character: the zone of `z` and a digit (R320). -/
def decChar (z : DWord) (i d : Nat) : BitVec 6 := z.extractLsb' (6 * i + 4) 2 ++ BitVec.ofNat 4 d

/-- The lowest character: the sign stands in bit 4 (R320). -/
def decLowChar (z : DWord) (plus : Bool) (d : Nat) : BitVec 6 := z.extractLsb' 5 1 ++ BitVec.ofBool plus ++ BitVec.ofNat 4 d

/-- The word with the zones of `z`, a sign, and the digit that `d` gives for each place. -/
def decJoin (z : DWord) (plus : Bool) (d : Nat → Nat) : DWord :=
  decChar z 9 (d 9) ++ decChar z 8 (d 8) ++ decChar z 7 (d 7) ++ decChar z 6 (d 6) ++ decChar z 5 (d 5) ++ decChar z 4 (d 4) ++
    decChar z 3 (d 3) ++ decChar z 2 (d 2) ++ decChar z 1 (d 1) ++ decLowChar z plus (d 0)

/-- `dpack(Z, s, m)` (R322). -/
def decPack (z : DWord) (plus : Bool) (m : Nat) : DWord := decJoin z plus fun i => m / 10 ^ i % 10

/-- `nines(m)` (R323). -/
def nines (m : Nat) : Nat := 10 ^ 10 - 1 - m

/-- `tens(m)` (R323). -/
def tens (m : Nat) : Nat := (10 ^ 10 - m) % 10 ^ 10

/-- What `dadd` gives: the end-off carry, the sign and the magnitude (R333). -/
structure DecSum where
  carry : Bool
  plus : Bool
  mag : Nat
  deriving DecidableEq, Repr

/-- The common procedure `dadd` (R333, D26): `plusM` is the sign the storage operand is taken with. -/
def decSum (x m : DWord) (plusM : Bool) (cin : Bool) (multi : Bool) : DecSum :=
  let a := decMag x
  let b := decMag m
  let n := 10 ^ 10
  if decPlus x == plusM then
    let t := a + b + cin.toNat
    ⟨decide (n ≤ t), decPlus x, t % n⟩
  else
    let t := (if multi then nines a else n - a) + b + cin.toNat
    if n ≤ t then ⟨true, plusM, t - n⟩
    else ⟨false, decPlus x, if multi then nines t else tens t⟩

/-- AQ with its zones and free digits and sign: a digit above 9 was met (U13, log 23). -/
def freeDecimal (keepSign : Bool) (s : State) : State :=
  let f : DWord := Config.freeWord s.free ++ Config.freeWord (s.free + 1)
  let z := aq s
  spend (spend (setAq (decJoin z (if keepSign then decPlus z else decPlus f) (digitAt f)) s))

/-- The key of the decimal order: −0 just below +0 (46_comparison.md R387, D29). -/
def decKey (x : DWord) : Int := if decPlus x then (decMag x : Int) else -(decMag x : Int) - 1

/-! ## Floating-point operands (43_arith_float.md R300 to R303) -/

/-- A pattern that is zero: all zeros or all ones (R301). -/
def fpZero (x : DWord) : Bool := x == 0 || x == BitVec.allOnes 60

/-- The characteristic, un-complemented (R301). -/
def fpChar (x : DWord) : Nat := ((magnitude x).extractLsb' 48 11).toNat

/-- The fraction, un-complemented (R301). -/
def fpFrac (x : DWord) : Nat := ((magnitude x).extractLsb' 0 48).toNat

/-- A number that multiplication and division accept (R302). -/
def fpNormalized (x : DWord) : Bool := fpZero x || (magnitude x).getLsbD 47

/-- The signed fraction of a number. -/
def fpSigned (x : DWord) : Int :=
  if fpZero x then 0 else if x.msb then -(fpFrac x : Int) else (fpFrac x : Int)

/-- `fenc(s, C, F)` (R301). -/
def fpEncode (neg : Bool) (c f : Nat) : DWord :=
  let m : DWord := BitVec.ofNat 60 (c * 2 ^ 48 + f)
  if neg then ~~~m else m

/-- How many bits a magnitude has. -/
def bitLength (n : Nat) : Nat := if n = 0 then 0 else Nat.log2 n + 1

/-- The first 48 bits of a magnitude, point at the left (R303). -/
def fpTruncate (mag : Nat) : Nat :=
  let l := bitLength mag
  if l ≤ 48 then mag * 2 ^ (48 - l) else mag / 2 ^ (l - 48)

/-- The exact result ± mag · 2^exp2, with a remainder below where `sticky`, is a number of 48 significant bits, which no rounding
changes (R303, 91_not_in_source.md N6). -/
def fpExact (mag : Nat) (sticky : Bool) : Bool := !sticky && mag % 2 ^ (bitLength mag - 48) == 0

/-- `fenc` of the rounded result, e the exponent of the exact one (R303). An inexact result by another rule than truncation keeps its
sign and is normalized, with a free fraction and the characteristic of e or, by a carry, of e + 1: the model's reading (log 22). -/
def fpRounded (rule : FpRound) (neg : Bool) (mag : Nat) (exp2 : Int) (sticky : Bool) : DWord :=
  let e := (bitLength mag : Int) + exp2
  if rule = .truncate ∨ fpExact mag sticky = true then fpEncode neg (e + 1024).toNat (fpTruncate mag)
  else
    let z := Config.otherRounding neg mag exp2 sticky
    let carry : Int := if z.msb && decide (e < 1023) then 1 else 0
    fpEncode neg (e + carry + 1024).toNat (2 ^ 47 + z.toNat % 2 ^ 47)

/-- `fres(r)` for r = ± mag · 2^exp2, with a remainder below where `sticky` (R303). AQ is free after either interrupt (U10, log 20);
the tests are made on the exponent of the exact result (log 22). -/
def fpResult (neg : Bool) (mag : Nat) (exp2 : Int) (sticky : Bool) (s : State) : Result :=
  if mag = 0 then .next (setAq 0 s)
  else
    let e := (bitLength mag : Int) + exp2
    if 1023 < e then raise .fpOverflow none (freeAq s)
    else if e < -1024 then raise .fpUnderflow none (freeAq s)
    else .next (setAq (fpRounded s.cfg.fpRound neg mag exp2 sticky) s)

end Sys2Proof.Machine
end

