-- ==== Sys2Proof/Machine/Comparison.lean ====
section
/-! DEFINITION. Comparison instructions (46_comparison.md): only the skip depends on the comparison. -/

namespace Sys2Proof.Machine

open Sys2Proof

/-- 04 (R382). -/
def execCompare (j k b : BitVec 3) (y : BitVec 15) (s : State) : Result :=
  (readOperand true k b y s).andThen fun v s1 => .next (skipIf (skipCompare j v s1) s1)

/-- 43 (R383). -/
def execCompareMasked (j k b : BitVec 3) (y : BitVec 15) (s : State) : Result :=
  (readOperand true k b y s).andThen fun v s1 => .next (skipIf (skipMasked j (onesSub s1.a (v &&& s1.q)) s1) s1)

/-- 7723 (R384). -/
def execCompareAqEqual (b : BitVec 3) (y : BitVec 15) (s : State) : Result :=
  (readDouble b y s).andThen fun m s1 => .next (skipIf (aq s1 == m) s1)

/-- 7727 (R385, R381). -/
def execCompareAqLess (b : BitVec 3) (y : BitVec 15) (s : State) : Result :=
  (readDouble b y s).andThen fun m s1 => .next (skipIf ((aq s1).slt m) s1)

/-- A decimal comparison; a digit above 9 leaves the skip free (44_arith_decimal.md R321, U13). -/
def decimalCompare (test : DWord → DWord → Bool) (b : BitVec 3) (y : BitVec 15) (s : State) : Result :=
  (readDouble b y s).andThen fun m s1 =>
    if decValid (aq s1) && decValid m then .next (skipIf (test (aq s1) m) s1)
    else .next (spend (skipIf (freeChoice s1) s1))

/-- 7713 (R386). -/
def execDecimalCompareEqual (b : BitVec 3) (y : BitVec 15) (s : State) : Result :=
  decimalCompare (fun x m => decMag x == decMag m && decPlus x == decPlus m) b y s

/-- 7717 (R387, D29). -/
def execDecimalCompareLess (b : BitVec 3) (y : BitVec 15) (s : State) : Result :=
  decimalCompare (fun x m => decide (decKey x < decKey m)) b y s

/-- 7753 (R388). -/
def execMaskedAlphaEqual (b : BitVec 3) (y : BitVec 15) (s : State) : Result :=
  (readWord b y s).andThen fun m s1 => .next (skipIf (s1.a &&& s1.q == m &&& s1.q) s1)

/-- 7757, as unsigned integers (R389). -/
def execMaskedAlphaLess (b : BitVec 3) (y : BitVec 15) (s : State) : Result :=
  (readWord b y s).andThen fun m s1 => .next (skipIf ((s1.a &&& s1.q).ult (m &&& s1.q)) s1)

end Sys2Proof.Machine
end

