-- ==== Sys2Proof/Machine/Decimal.lean ====
section
/-! DEFINITION. Decimal instructions (44_arith_decimal.md). -/

namespace Sys2Proof.Machine

open Sys2Proof

/-- The decimal additions: `dadd` on AQ and an operand, its carry into f5 or f4, the sum into AQ with AQ's zones (R322, R324, R333). A
digit above 9 leaves the digits, the sign and the designator free (R321, U13, log 23). -/
def decimalAddition (subtract multi : Bool) (b : BitVec 3) (y : BitVec 15) (s : State) : Result :=
  (readDouble b y s).andThen fun m s1 =>
    let x := aq s1
    let flag (v : Bool) (t : State) : State := if subtract then setBorrow v t else setCarry v t
    if decValid x && decValid m then
      let cin := multi && (if subtract then borrowFlag s1 else carryFlag s1)
      let r := decSum x m (if subtract then !decPlus m else decPlus m) cin multi
      .next (setAq (decPack x r.plus r.mag) (flag r.carry s1))
    else .next (freeDecimal false (spend (flag (freeChoice s1) s1)))

/-- 7711 (R325). -/
def execDecimalAdd (b : BitVec 3) (y : BitVec 15) (s : State) : Result := decimalAddition false false b y s

/-- 7712: adds with the operand's sign reversed (R326). -/
def execDecimalSubtract (b : BitVec 3) (y : BitVec 15) (s : State) : Result := decimalAddition true false b y s

/-- 7715 (R328). -/
def execDecimalAddCarry (b : BitVec 3) (y : BitVec 15) (s : State) : Result := decimalAddition false true b y s

/-- 7716 (R329). -/
def execDecimalSubtractBorrow (b : BitVec 3) (y : BitVec 15) (s : State) : Result := decimalAddition true true b y s

/-- 7714: the nines complement where `ybar` is odd, the tens complement where it is even (R327). -/
def execDecimalComplement (b : BitVec 3) (y : BitVec 15) (s : State) : Result :=
  (dataOperand true b y s).andThen fun r s1 =>
    let x := aq s1
    if decValid x then .next (setAq (decPack x (decPlus x) (if r.getLsbD 0 then nines (decMag x) else tens (decMag x))) s1)
    else .next (freeDecimal true s1)

/-- Whether test i of Table 4-4 is satisfied (R330). -/
def decimalTestHolds (i : Nat) (s : State) : Bool :=
  let x := aq s
  match i with
  | 0 => decimalOverflow s
  | 1 => !decimalOverflow s
  | 2 => decPlus x
  | 3 => decMag x == 0
  | 4 => !decPlus x
  | 10 => decMag x != 0
  | n => digitAt x n != 0

/-- 7710: skips where any test that a bit of the instruction word selects is satisfied (R330). -/
def execDecimalTest (b : BitVec 3) (y : BitVec 15) (s : State) : Result :=
  (dataOperand true b y s).andThen fun _ s1 =>
    .next (skipIf ((List.range 11).any fun i => y.getLsbD i && decimalTestHolds i s1) s1)

/-- AQ · 10^5 plus five digits, the first the most significant; AQ is free beyond 2^34 − 1, for a digit above 9, and where `clear`
fails for a word (R331, R332, D28, U14, log 24). That the exact product, not its low 60 bits, is compared with 2^34 − 1 is the
model's choice (log 24). -/
def decimalConvert (digit : Word → Nat) (clear : Word → Bool) (b : BitVec 3) (y : BitVec 15) (s : State) : Result :=
  let (o, s1) := operandAddr true b y s
  (readWords o 0 5 s1).andThen fun ws s2 =>
    let n := ws.foldl (fun acc w => acc * 10 + digit w) 0
    let r := (aq s2).toNat * 100000 + n
    if (ws.all fun w => decide (digit w ≤ 9) && clear w) && decide (r ≤ 2 ^ 34 - 1) then .next (setAq (BitVec.ofNat 60 r) s2)
    else .next (freeAq s2)

/-- 7733: digits in bits 3 to 0, bits 14 to 6 must be 0 (R331). -/
def execDecimalConvertLower (b : BitVec 3) (y : BitVec 15) (s : State) : Result :=
  decimalConvert (fun w => (w.extractLsb' 0 4).toNat) (fun w => w.extractLsb' 6 9 == 0) b y s

/-- 7734: digits in bits 18 to 15, bits 29 to 21 must be 0 (R332). -/
def execDecimalConvertUpper (b : BitVec 3) (y : BitVec 15) (s : State) : Result :=
  decimalConvert (fun w => (w.extractLsb' 15 4).toNat) (fun w => w.extractLsb' 21 9 == 0) b y s

end Sys2Proof.Machine
end

