-- ==== Sys2Proof/Machine/Floating.lean ====
section
/-! DEFINITION. Exponential (floating-point) instructions (43_arith_float.md). -/

namespace Sys2Proof.Machine

open Sys2Proof

/-- The exact sum of AQ and an operand, or of its negative, then `fres` (R303, R304, R305). -/
def fpSum (negate : Bool) (m : DWord) (s : State) : Result :=
  let x := aq s
  let low := min (fpChar x) (fpChar m)
  let fx := fpSigned x * 2 ^ (fpChar x - low)
  let fm := fpSigned m * 2 ^ (fpChar m - low)
  let r := if negate then fx - fm else fx + fm
  fpResult (decide (r < 0)) r.natAbs ((low : Int) - 1072) false s

/-- 7701 (R304). -/
def execFpAdd (b : BitVec 3) (y : BitVec 15) (s : State) : Result :=
  (readDouble b y s).andThen fun m s1 => fpSum false m s1

/-- 7702 (R305). -/
def execFpSubtract (b : BitVec 3) (y : BitVec 15) (s : State) : Result :=
  (readDouble b y s).andThen fun m s1 => fpSum true m s1

/-- 7703: AQ is free where an operand is not normalized (R306, U11, log 21). -/
def execFpMultiply (b : BitVec 3) (y : BitVec 15) (s : State) : Result :=
  (readDouble b y s).andThen fun m s1 =>
    let x := aq s1
    if fpNormalized x && fpNormalized m then
      let r := fpSigned x * fpSigned m
      fpResult (decide (r < 0)) r.natAbs ((fpChar x : Int) + fpChar m - 2144) false s1
    else .next (freeAq s1)

/-- 7705: division by zero is an overflow, whatever AQ holds (R307, U11, logs 20 and 21). Sixty-four more bits than the fraction
has are kept before the remainder is discarded. -/
def execFpDivide (b : BitVec 3) (y : BitVec 15) (s : State) : Result :=
  (readDouble b y s).andThen fun m s1 =>
    let x := aq s1
    if fpZero m then raise .fpOverflow none (freeAq s1)
    else if fpNormalized x && fpNormalized m then
      let n := (fpSigned x).natAbs * 2 ^ 64
      let d := fpFrac m
      fpResult (x.msb != m.msb) (n / d) ((fpChar x : Int) - fpChar m - 64) (n % d != 0) s1
    else .next (freeAq s1)

/-- 7706: no interrupt is raised, a characteristic outside 0 to 2047 leaves AQ free (R308, D25, U11). -/
def execFpPack (b : BitVec 3) (y : BitVec 15) (s : State) : Result :=
  (readWord b y s).andThen fun w s1 =>
    let neg := s1.a.msb
    let g := (magnitude (aq s1)).toNat
    if g = 0 then .next (setAq 0 s1)
    else
      let c : Int := (w.extractLsb' 0 11).toNat + (bitLength g : Int) - 48
      if 0 ≤ c ∧ c ≤ 2047 then .next (setAq (fpEncode neg c.toNat (fpTruncate g)) s1)
      else .next (freeAq s1)

/-- 7707: the characteristic goes to the lower half at `ybar` and the sign fills its place in AQ (R309, D20). A denied write leaves
AQ either way (U2, log 17); one whose test read finds wrong parity leaves the AQ of the instruction, which R557 leaves open and is the
model's choice (log 28). -/
def execFpUnpack (b : BitVec 3) (y : BitVec 15) (s : State) : Result :=
  let (o, s1) := operandAddr true b y s
  let x := aq s1
  let fill : BitVec 11 := if x.msb then BitVec.allOnes 11 else 0
  let x' : DWord := x.extractLsb' 59 1 ++ fill ++ x.extractLsb' 0 48
  (writeAt o true 0 .lower (BitVec.ofNat 30 (fpChar x)) (eitherAq x) (setAq x' s1)).andThen fun _ s2 =>
    .next s2

end Sys2Proof.Machine
end

