-- ==== Sys2Proof/Machine/InputOutput.lean ====
section
/-! DEFINITION. Input/output instructions (49_io.md R461 to R475). All are privileged. -/

namespace Sys2Proof.Machine

open Sys2Proof

/-- A j-hat that must be 0 (30_encoding.md R165, U7). -/
def plainJHat (jh : BitVec 4) (k : Result) : Result := if zeroJHat jh then k else .refused .forbiddenDesignator

/-- 13: k-hat 3 sends a function word, 0 sets the console audio, 1 and 2 do nothing (R461, C10, log 39). -/
def execSendExternalFunction (jh : BitVec 4) (kh : BitVec 2) (b : BitVec 3) (y : BitVec 15) (s : State) : Result :=
  privileged s <| plainJHat jh <|
    match kh with
    | 3#2 =>
      (readWord b y s).andThen fun w s1 =>
        (withChannel (chanNow s1) s1).andThen fun c s2 => .next (emit (.externalFunction c w) s2)
    | 0#2 =>
      (dataOperand true b y s).andThen fun r s1 =>
        let s2 := if r.getLsbD 2 then emit .audioEnable s1 else s1
        .next (if r.getLsbD 3 then emit .audioDisable s2 else s2)
    | _ => .next (captureUnused b y s)

/-- The device has its acknowledge and drops EI (R460, log 36). -/
def acknowledgeEi (c : Fin 24) (s : State) : State := emit (.inputAck c) (putChan c { chan s c with ei := false } s)

/-- 17: k-hat 3 stores the status word of channel IASR, whatever `USE_IASR` is; the others do nothing (R462). -/
def execStoreChannel (jh : BitVec 4) (kh : BitVec 2) (b : BitVec 3) (y : BitVec 15) (s : State) : Result :=
  privileged s <| plainJHat jh <|
    match kh with
    | 3#2 =>
      (withChannel s.sel.iasr s).andThen fun c s1 =>
        (storeWhole b y (chan s1 c).inLines s1).andThen fun _ s2 => .next (acknowledgeEi c s2)
    | _ => .next (captureUnused b y s)

/-- 62 and 63: a jump where the channel is active (R463, R464). -/
def jumpActive (active : Channel → Bool) (jh : BitVec 4) (kh : BitVec 2) (b : BitVec 3) (y : BitVec 15) (s : State) : Result :=
  privileged s <| plainJHat jh <|
    (channelJumpOperand kh b y s).andThen fun t s1 =>
      (withChannel (chanNow s1) s1).andThen fun c s2 =>
        if active (chan s2 c) then jumpTo b t id id s2 else .next s2

/-- 62 (R463). -/
def execJumpActiveInput (jh : BitVec 4) (kh : BitVec 2) (b : BitVec 3) (y : BitVec 15) (s : State) : Result :=
  jumpActive Channel.inActive jh kh b y s

/-- 63 (R464). -/
def execJumpActiveOutput (jh : BitVec 4) (kh : BitVec 2) (b : BitVec 3) (y : BitVec 15) (s : State) : Result :=
  jumpActive Channel.outActive jh kh b y s

/-- 66: both designators must be 0 (R465). -/
def execTerminateInput (jh : BitVec 4) (kh : BitVec 2) (b : BitVec 3) (y : BitVec 15) (s : State) : Result :=
  privileged s <| plainJHat jh <|
    if kh = 0#2 then
      let s1 := captureUnused b y s
      (withChannel (chanNow s1) s1).andThen fun c s2 =>
        .next (putChan c { chan s2 c with inActive := false, inMon := false } s2)
    else .refused .forbiddenDesignator

/-- 67: k-hat 3 is no operation (R466). -/
def execTerminateOutput (jh : BitVec 4) (kh : BitVec 2) (b : BitVec 3) (y : BitVec 15) (s : State) : Result :=
  privileged s <| plainJHat jh <|
    let s1 := captureUnused b y s
    if kh = 3#2 then .next s1
    else
      (withChannel (chanNow s1) s1).andThen fun c s2 =>
        .next (putChan c { chan s2 c with outActive := false, outMon := false, efActive := false, outDone := false } s2)

/-- Loading the BCW at a fixed location, by k-hat: an unprotected write of a fixed address (R475). -/
def loadBcw (kh : BitVec 2) (n : BitVec 15) (b : BitVec 3) (y : BitVec 15) (s : State) : Res Unit :=
  match kh with
  | 0#2 => .ok () (captureUnused b y s)
  | 1#2 => (readWord b y s).bind fun w s1 => cpuWrite (fixedAddr s1 n) .lower w s1
  | 2#2 => (readWord b y s).bind fun w s1 => cpuWrite (fixedAddr s1 n) .upper ((upperHalf w).setWidth 30) s1
  | _ => (readWord b y s).bind fun w s1 => cpuWrite (fixedAddr s1 n) .whole w s1

/-- The fixed location of a channel's input BCR (20_memory.md R111). -/
def inputBcr (c : Fin 24) : BitVec 15 := BitVec.ofNat 15 (0o100 + c.val)

/-- The fixed location of a channel's output BCR (20_memory.md R111). -/
def outputBcr (c : Fin 24) : BitVec 15 := BitVec.ofNat 15 (0o40 + c.val)

/-- 73 and 75 (R471, R473). -/
def activateIn (monitor : Bool) (kh : BitVec 2) (b : BitVec 3) (y : BitVec 15) (s : State) : Result :=
  privileged s <|
    (withChannel (chanNow s) s).andThen fun c s1 =>
      (loadBcw kh (inputBcr c) b y s1).andThen fun _ s2 =>
        .next (putChan c { chan s2 c with inActive := true, inMon := monitor } s2)

/-- 74 and 76: an odd j-hat makes an External Function buffer (R472, R474). -/
def activateOut (monitor : Bool) (jh : BitVec 4) (kh : BitVec 2) (b : BitVec 3) (y : BitVec 15) (s : State) : Result :=
  privileged s <|
    (withChannel (chanNow s) s).andThen fun c s1 =>
      (loadBcw kh (outputBcr c) b y s1).andThen fun _ s2 =>
        .next (putChan c { chan s2 c with outActive := true, outMon := monitor, efActive := jh.getLsbD 0, outDone := false } s2)

/-- 73: j-hat is not used (R471). -/
def execActivateInput (_jh : BitVec 4) (kh : BitVec 2) (b : BitVec 3) (y : BitVec 15) (s : State) : Result :=
  activateIn false kh b y s

/-- 74 (R472). -/
def execActivateOutput (jh : BitVec 4) (kh : BitVec 2) (b : BitVec 3) (y : BitVec 15) (s : State) : Result :=
  activateOut false jh kh b y s

/-- 75: j-hat is not used (R473). -/
def execActivateInputMonitor (_jh : BitVec 4) (kh : BitVec 2) (b : BitVec 3) (y : BitVec 15) (s : State) : Result :=
  activateIn true kh b y s

/-- 76 (R474). -/
def execActivateOutputMonitor (jh : BitVec 4) (kh : BitVec 2) (b : BitVec 3) (y : BitVec 15) (s : State) : Result :=
  activateOut true jh kh b y s

/-- 7770: a pulse on each line that the bits of `ybar` name and that is wired (R469, D39, log 47). -/
def execInitiateSyncInterrupt (b : BitVec 3) (y : BitVec 15) (s : State) : Result :=
  privileged s <|
    (dataOperand true b y s).andThen fun r s1 =>
      let wired := s1.cfg.syncOut
      let s2 := if r.getLsbD (if s1.cfg.sync0AtBit0 then 0 else 10) && wired[0] then emit .sync0 s1 else s1
      .next (if r.getLsbD 1 && wired[1] then emit .sync1 s2 else s2)

/-- 7772 (R467, D38). -/
def execStoreChannelNumber (b : BitVec 3) (y : BitVec 15) (s : State) : Result :=
  privileged s <| (storeWhole b y ((chanNo s).setWidth 30) s).andThen fun _ s1 => .next s1

/-- 7773 (R468). -/
def execEnterCsr (b : BitVec 3) (y : BitVec 15) (s : State) : Result :=
  privileged s <| (readWord b y s).andThen fun w s1 => .next (s1.setSel { s1.sel with csr := w.extractLsb' 0 5 })

end Sys2Proof.Machine
end

