-- ==== Sys2Proof/Machine/Integer.lean ====
section
/-! DEFINITION. Integer arithmetic instructions (42_arith_integer.md). -/

namespace Sys2Proof.Machine

open Sys2Proof

/-- 20 (R266). -/
def execAddA (j k b : BitVec 3) (y : BitVec 15) (s : State) : Result :=
  (readOperand true k b y s).andThen fun v s1 => endNormal j (s1.setA (onesAdd s1.a v))

/-- 21 (R267). -/
def execSubtractA (j k b : BitVec 3) (y : BitVec 15) (s : State) : Result :=
  (readOperand true k b y s).andThen fun v s1 => endNormal j (s1.setA (onesSub s1.a v))

/-- 22: with k = 7 and a negative Q the product comes out complemented (R268, R269, D22). -/
def execMultiply (j k b : BitVec 3) (y : BitVec 15) (s : State) : Result :=
  (readOperand true k b y s).andThen fun v s1 =>
    let p := product s1.q v
    let s2 := setAq (if k == 7#3 && s1.q.msb then ~~~p else p) s1
    .next (skipIf (skipMultiply j s2) s2)

/-- 23 on a divisor (R270 to R276). A quotient that does not fit leaves A and the sensed remainder free (R272, U8, log 18); a zero
dividend with a divisor of the other sign leaves Q and A free (R271, U9, log 19); a zero divisor follows the table of R273. -/
def divideBy (j : BitVec 3) (v : Word) (s : State) : Result :=
  let unlike := s.a.msb != v.msb
  let dd := magnitude (aq s)
  let dv := magnitude v
  let fix (x : Word) : Word := if unlike then ~~~x else x
  if dv = 0 then
    let sensed : Word := dd.setWidth 30
    let s1 := (s.setQ (fix (BitVec.allOnes 30))).setA (fix sensed)
    .next (skipIf (skipDivide j true sensed) s1)
  else
    let qs : Nat := dd.toNat / dv.toNat
    let as : Word := BitVec.ofNat 30 (dd.toNat % dv.toNat)
    if 2 ^ 29 ≤ qs then
      let s1 := freeA (s.setQ (fix 0))
      .next (skipIf (skipDivide j true (freeValue s1)) (spend s1))
    else if dd = 0 ∧ unlike then .next (skipIf (skipDivide j false as) (freeAq s))
    else
      let s1 := (s.setQ (fix (BitVec.ofNat 30 qs))).setA (fix as)
      .next (skipIf (skipDivide j false as) s1)

/-- 23; k = 7 may not be used (R270, R173). -/
def execDivide (j k b : BitVec 3) (y : BitVec 15) (s : State) : Result :=
  if notSevenK k then (readOperand true k b y s).andThen fun v s1 => divideBy j v s1
  else .refused .forbiddenDesignator

/-- A Replace-class instruction with the normal j (30_encoding.md R157). -/
def replaceNormal (f : State → Word → Word) (j k b : BitVec 3) (y : BitVec 15) (s : State) : Result :=
  (replaceOperand k b y f s).andThen fun _ s1 => endNormal j s1

/-- 24 (R277). -/
def execReplaceAPlusY (j k b : BitVec 3) (y : BitVec 15) (s : State) : Result :=
  replaceNormal (fun t v => onesAdd t.a v) j k b y s

/-- 25 (R278). -/
def execReplaceAMinusY (j k b : BitVec 3) (y : BitVec 15) (s : State) : Result :=
  replaceNormal (fun t v => onesSub t.a v) j k b y s

/-- 26 (R279). -/
def execAddQ (j k b : BitVec 3) (y : BitVec 15) (s : State) : Result :=
  (readOperand true k b y s).andThen fun v s1 =>
    let s2 := s1.setQ (onesAdd s1.q v)
    .next (skipIf (skipQ j s2) s2)

/-- 27 (R280). -/
def execSubtractQ (j k b : BitVec 3) (y : BitVec 15) (s : State) : Result :=
  (readOperand true k b y s).andThen fun v s1 =>
    let s2 := s1.setQ (onesSub s1.q v)
    .next (skipIf (skipQ j s2) s2)

/-- 30 (R281). -/
def execEnterYPlusQ (j k b : BitVec 3) (y : BitVec 15) (s : State) : Result :=
  (readOperand true k b y s).andThen fun v s1 => endNormal j (s1.setA (onesAdd v s1.q))

/-- 31 (R282). -/
def execEnterYMinusQ (j k b : BitVec 3) (y : BitVec 15) (s : State) : Result :=
  (readOperand true k b y s).andThen fun v s1 => endNormal j (s1.setA (onesSub v s1.q))

/-- 32 and 33: the result goes to A, and by k to Q, to storage, or nowhere else (R283). -/
def storeResult (r : Word) (j k b : BitVec 3) (y : BitVec 15) (s : State) : Result :=
  if k = 0#3 then endNormal j (((captureUnused b y s).setA r).setQ r)
  else if k = 4#3 then endNormal j ((captureUnused b y s).setA r)
  else (storeOperand k b y r (eitherA s.a) (s.setA r)).andThen fun _ s1 => endNormal j s1

/-- 32 (R283). -/
def execStoreAPlusQ (j k b : BitVec 3) (y : BitVec 15) (s : State) : Result :=
  storeResult (onesAdd s.a s.q) j k b y s

/-- 33 (R284). -/
def execStoreAMinusQ (j k b : BitVec 3) (y : BitVec 15) (s : State) : Result :=
  storeResult (onesSub s.a s.q) j k b y s

/-- 34 (R285). -/
def execReplaceYPlusQ (j k b : BitVec 3) (y : BitVec 15) (s : State) : Result :=
  replaceNormal (fun t v => onesAdd v t.q) j k b y s

/-- 35 (R286). -/
def execReplaceYMinusQ (j k b : BitVec 3) (y : BitVec 15) (s : State) : Result :=
  replaceNormal (fun t v => onesSub v t.q) j k b y s

/-- 36 (R287). -/
def execReplaceYPlus1 (j k b : BitVec 3) (y : BitVec 15) (s : State) : Result :=
  replaceNormal (fun _ v => onesAdd v 1) j k b y s

/-- 37 (R288). -/
def execReplaceYMinus1 (j k b : BitVec 3) (y : BitVec 15) (s : State) : Result :=
  replaceNormal (fun _ v => onesSub v 1) j k b y s

/-- 7722 (R289). -/
def execAddAq (b : BitVec 3) (y : BitVec 15) (s : State) : Result :=
  (readDouble b y s).andThen fun m s1 => .next (setAq (onesAdd (aq s1) m) s1)

/-- 7724 (R290). -/
def execComplementAq (b : BitVec 3) (y : BitVec 15) (s : State) : Result :=
  let s1 := captureUnused b y s
  .next ((s1.setA (~~~s1.a)).setQ (~~~s1.q))

/-- 7726 (R291). -/
def execSubtractAq (b : BitVec 3) (y : BitVec 15) (s : State) : Result :=
  (readDouble b y s).andThen fun m s1 => .next (setAq (onesSub (aq s1) m) s1)

end Sys2Proof.Machine
end

