-- ==== Sys2Proof/Machine/Jump.lean ====
section
/-! DEFINITION. Jump instructions (47_jump.md). -/

namespace Sys2Proof.Machine

open Sys2Proof

/-- 60: j = 0 and 1 release the interrupt lockout, j = 0 does nothing else (R401, R402). -/
def execJumpArithmetic (j k b : BitVec 3) (y : BitVec 15) (s : State) : Result :=
  if j = 0#3 then .next (releaseLockout (capture s.pc s))
  else
    (jumpOperand k b y s).andThen fun v s1 =>
      let s2 := if j = 1#3 then releaseLockout s1 else s1
      if jumpCond j s2 then jumpTo b (jumpRel k v s1) id id s2 else .next s2

/-- `if stop(j) then Stop()` (R403, R404). -/
def stopIf (j : BitVec 3) (s : State) : State := if manualStop j s then stopCpu s else s

/-- 61 (R403). -/
def execJumpManual (j k b : BitVec 3) (y : BitVec 15) (s : State) : Result :=
  (jumpOperand k b y s).andThen fun v s1 =>
    if manualJump j s1 then jumpTo b (jumpRel k v s1) id (stopIf j) s1 else .next s1

/-- 64: j = 0 and 1 set the interrupt lockout, j = 0 does nothing else; the target is always 15 bits (R405, D31). -/
def execReturnJumpArithmetic (j k b : BitVec 3) (y : BitVec 15) (s : State) : Result :=
  if j = 0#3 then .next (setLockout (capture s.pc s))
  else
    (jumpOperand k b y s).andThen fun v s1 =>
      let s2 := if j = 1#3 then setLockout s1 else s1
      if jumpCond j s2 then returnJump b ((lowerHalf v).setWidth 17) id s2 else .next s2

/-- 65 (R406). -/
def execReturnJumpManual (j k b : BitVec 3) (y : BitVec 15) (s : State) : Result :=
  (jumpOperand k b y s).andThen fun v s1 =>
    if manualJump j s1 then returnJump b ((lowerHalf v).setWidth 17) (stopIf j) s1 else .next s1

/-- 7737: the target is run next, with P left as it is (R412, D32, log 6). Directly after 7761 its own conversion puts the new IFR
into effect, so the target's guard check, `ybar` and references are under the new configuration: the model's choice (log 60). -/
def execExecuteRemote (b : BitVec 3) (y : BitVec 15) (s : State) : Result :=
  let s1 := capture s.pc s
  let (o, s2) := convert b (effective b y s1) s1
  if o.checked && readProtected s2 && !inside s2 o.base then protection o.base false s2
  else .next (s2.setFetch (.remote o.base))

/-- 7740 (R415). -/
def execEnterB0Jump (b : BitVec 3) (y : BitVec 15) (s : State) : Result :=
  let s1 := capture s.pc s
  jumpTo b (effective b y s1) id id s1

/-- A set of index registers is as before or as the instruction leaves it (U2, log 17). -/
def eitherB (v : BView) (old : BSet) (s : State) : State := spend (if freeChoice s then s else putBSet v old s)

/-- 7741 to 7747: all physical bits of B_g are written, after the target has been formed (R416). -/
def enterBJump (g b : BitVec 3) (y : BitVec 15) (s : State) : Result :=
  let s1 := capture s.pc s
  let v := bView s1
  jumpTo b (effective b y s1) (eitherB v (bSetOf v s1)) id (bWritePhysical v g (relPc s1) s1)

/-- 7741 (R417). -/
def execEnterB1Jump (b : BitVec 3) (y : BitVec 15) (s : State) : Result := enterBJump 1#3 b y s

/-- 7742 (R418). -/
def execEnterB2Jump (b : BitVec 3) (y : BitVec 15) (s : State) : Result := enterBJump 2#3 b y s

/-- 7743 (R419). -/
def execEnterB3Jump (b : BitVec 3) (y : BitVec 15) (s : State) : Result := enterBJump 3#3 b y s

/-- 7744 (R420). -/
def execEnterB4Jump (b : BitVec 3) (y : BitVec 15) (s : State) : Result := enterBJump 4#3 b y s

/-- 7745 (R421). -/
def execEnterB5Jump (b : BitVec 3) (y : BitVec 15) (s : State) : Result := enterBJump 5#3 b y s

/-- 7746 (R422). -/
def execEnterB6Jump (b : BitVec 3) (y : BitVec 15) (s : State) : Result := enterBJump 6#3 b y s

/-- 7747 (R423). -/
def execEnterB7Jump (b : BitVec 3) (y : BitVec 15) (s : State) : Result := enterBJump 7#3 b y s

end Sys2Proof.Machine
end

