-- ==== Sys2Proof/Machine/Logical.lean ====
section
/-! DEFINITION. Logical instructions (45_logical.md). -/

namespace Sys2Proof.Machine

open Sys2Proof

/-- Selective substitute (R367): where `mask` is 1 the operand's bit, elsewhere the old one. -/
def substitute (old mask v : Word) : Word := (old &&& ~~~mask) ||| (v &&& mask)

/-- 40 (R351). -/
def execEnterLp (j k b : BitVec 3) (y : BitVec 15) (s : State) : Result :=
  (readOperand true k b y s).andThen fun v s1 =>
    let s2 := s1.setA (v &&& s1.q)
    .next (skipIf (skipLp j s2) s2)

/-- 41 (R352). -/
def execAddLp (j k b : BitVec 3) (y : BitVec 15) (s : State) : Result :=
  (readOperand true k b y s).andThen fun v s1 => endNormal j (s1.setA (onesAdd s1.a (v &&& s1.q)))

/-- 42 (R353). -/
def execSubtractLp (j k b : BitVec 3) (y : BitVec 15) (s : State) : Result :=
  (readOperand true k b y s).andThen fun v s1 => endNormal j (s1.setA (onesSub s1.a (v &&& s1.q)))

/-- 44 (R354). -/
def execReplaceLp (j k b : BitVec 3) (y : BitVec 15) (s : State) : Result :=
  (replaceOperand k b y (fun t v => v &&& t.q) s).andThen fun _ s1 => .next (skipIf (skipLp j s1) s1)

/-- 45 (R355). -/
def execReplaceAPlusLp (j k b : BitVec 3) (y : BitVec 15) (s : State) : Result :=
  replaceNormal (fun t v => onesAdd t.a (v &&& t.q)) j k b y s

/-- 46 (R356). -/
def execReplaceAMinusLp (j k b : BitVec 3) (y : BitVec 15) (s : State) : Result :=
  replaceNormal (fun t v => onesSub t.a (v &&& t.q)) j k b y s

/-- 47: k = 0 stores into Q and k = 4 into A; k = 7 is not used (R357). -/
def execStoreLp (j k b : BitVec 3) (y : BitVec 15) (s : State) : Result :=
  if k = 7#3 then .refused .forbiddenDesignator
  else if k = 0#3 then
    let s1 := captureUnused b y s
    endNormal j (s1.setQ (s1.a &&& s1.q))
  else if k = 4#3 then
    let s1 := captureUnused b y s
    endNormal j (s1.setA (s1.a &&& s1.q))
  else (storeOperand k b y (s.a &&& s.q) id s).andThen fun _ s1 => endNormal j s1

/-- A selective instruction: A from A, Q and the operand (R367). -/
def selective (f : State → Word → Word) (j k b : BitVec 3) (y : BitVec 15) (s : State) : Result :=
  (readOperand true k b y s).andThen fun v s1 => endNormal j (s1.setA (f s1 v))

/-- 50; k = 7 may not be used (R358). -/
def execSelectiveSet (j k b : BitVec 3) (y : BitVec 15) (s : State) : Result :=
  if notSevenK k then selective (fun t v => t.a ||| v) j k b y s else .refused .forbiddenDesignator

/-- 51 (R359). -/
def execSelectiveComplement (j k b : BitVec 3) (y : BitVec 15) (s : State) : Result :=
  selective (fun t v => t.a ^^^ v) j k b y s

/-- 52; k = 7 may not be used (R360). -/
def execSelectiveClear (j k b : BitVec 3) (y : BitVec 15) (s : State) : Result :=
  if notSevenK k then selective (fun t v => t.a &&& ~~~v) j k b y s else .refused .forbiddenDesignator

/-- 53; k = 7 may not be used (R361). -/
def execSelectiveSubstitute (j k b : BitVec 3) (y : BitVec 15) (s : State) : Result :=
  if notSevenK k then selective (fun t v => substitute t.a t.q v) j k b y s else .refused .forbiddenDesignator

/-- 54 (R362). -/
def execReplaceSelectiveSet (j k b : BitVec 3) (y : BitVec 15) (s : State) : Result :=
  replaceNormal (fun t v => t.a ||| v) j k b y s

/-- 55 (R363). -/
def execReplaceSelectiveComplement (j k b : BitVec 3) (y : BitVec 15) (s : State) : Result :=
  replaceNormal (fun t v => t.a ^^^ v) j k b y s

/-- 56 (R364). -/
def execReplaceSelectiveClear (j k b : BitVec 3) (y : BitVec 15) (s : State) : Result :=
  replaceNormal (fun t v => t.a &&& ~~~v) j k b y s

/-- 57 (R365). -/
def execReplaceSelectiveSubstitute (j k b : BitVec 3) (y : BitVec 15) (s : State) : Result :=
  replaceNormal (fun t v => substitute t.a t.q v) j k b y s

end Sys2Proof.Machine
end

