-- ==== Sys2Proof/Machine/Transfer.lean ====
section
/-! DEFINITION. Transfer instructions (41_transfer.md). -/

namespace Sys2Proof.Machine

open Sys2Proof

/-- 10 (R221). -/
def execEnterQ (j k b : BitVec 3) (y : BitVec 15) (s : State) : Result :=
  (readOperand true k b y s).andThen fun v s1 => endNormal j (s1.setQ v)

/-- 11; with k = 7 the operand is A itself (R222). -/
def execEnterA (j k b : BitVec 3) (y : BitVec 15) (s : State) : Result :=
  (readOperand true k b y s).andThen fun v s1 => endNormal j (s1.setA v)

/-- The index registers that 12, 70, 71 and 72 name. Directly after 7761 it is either the old or the new set and width (R241,
70_reset_and_hazards.md R620, U20, log 26): the choice is made before the operand is read. -/
def hazardView (s : State) : Option BView :=
  match s.ctl.newIfr with
  | .due => some (if freeChoice s then bView s else bViewNew s)
  | .loading => none
  | .settled => none

/-- The free choice of `hazardView` has been taken. -/
def spendHazard (s : State) : State := if (hazardView s).isSome then spend s else s

/-- 12: j names the register; j = 0 is no operation and reads nothing (R223, D19). -/
def execEnterB (j k b : BitVec 3) (y : BitVec 15) (s : State) : Result :=
  if j = 0#3 then .next (captureUnused b y s)
  else
    let h := hazardView s
    (readOperand true k b y (spendHazard s)).andThen fun v s1 =>
      .next (bWriteIn (h.getD (bView s1)) j (v.setWidth 17) s1)

/-- 14: store class; k = 0 complements Q and k = 4 copies it to A (R225). -/
def execStoreQ (j k b : BitVec 3) (y : BitVec 15) (s : State) : Result :=
  if k = 0#3 then
    let s1 := captureUnused b y s
    endNormal j (s1.setQ (~~~s1.q))
  else if k = 4#3 then
    let s1 := captureUnused b y s
    endNormal j (s1.setA s1.q)
  else (storeOperand k b y s.q id s).andThen fun _ s1 => endNormal j s1

/-- 15: store class; k = 0 copies A to Q and k = 4 complements A (R226). -/
def execStoreA (j k b : BitVec 3) (y : BitVec 15) (s : State) : Result :=
  if k = 0#3 then
    let s1 := captureUnused b y s
    endNormal j (s1.setQ s1.a)
  else if k = 4#3 then
    let s1 := captureUnused b y s
    endNormal j (s1.setA (~~~s1.a))
  else (storeOperand k b y s.a id s).andThen fun _ s1 => endNormal j s1

/-- The word 16 stores: the register zero-filled, or for k = 5, 6, 7 its complement filled with its top bit (R227, R228). -/
def storeBWord (k j : BitVec 3) (s : State) : Word :=
  let v := bRead j s
  if k.getLsbD 2 then
    (if bWidth (bView s) j = 17 then (~~~v).signExtend 30 else (~~~(v.setWidth 15)).signExtend 30)
  else v.setWidth 30

/-- 16: j names the register, 0 means zeros; k = 0 stores into Q and k = 4 into A (R227). In the instruction after 7761 B_j is read
in the old set and width (41_transfer.md R241, log 57). -/
def execStoreB (j k b : BitVec 3) (y : BitVec 15) (s : State) : Result :=
  if k = 0#3 then
    let s1 := captureUnused b y s
    .next (s1.setQ ((bRead j s1).setWidth 30))
  else if k = 4#3 then
    let s1 := captureUnused b y s
    .next (s1.setA ((bRead j s1).setWidth 30))
  else
    let (o, s1) := operandAddr true b y s
    (writeAt o true 0 (partOf k) (storeBWord k j s) id s1).andThen fun _ s2 => .next s2

/-- 7721: A is entered before the second word is read (R230). -/
def execEnterAq (b : BitVec 3) (y : BitVec 15) (s : State) : Result :=
  let (o, s1) := operandAddr true b y s
  (readAt o true 0 s1).andThen fun w0 s2 =>
    (readAt o true 1 (s2.setA w0)).andThen fun w1 s3 => .next (s3.setQ w1)

/-- 7725 (R231). -/
def execStoreAq (b : BitVec 3) (y : BitVec 15) (s : State) : Result :=
  let (o, s1) := operandAddr true b y s
  (writeWords o .whole 0 [s.a, s.q] s1).andThen fun _ s2 => .next s2

/-- The control registers after 7761 has loaded them: the IFR that governed until now goes on governing (R240, R241, log 32). -/
def loadIfrRir (w0 w1 : Word) (s : State) : State :=
  s.setCtl { s.ctl with
    ifr := w0, oldIfr := s.ctl.ifr, rirIV := w1.extractLsb' 6 11, rirActive := true, ifrHold := false, newIfr := .loading,
    reinit := s.ctl.reinit || w0.getLsbD 29 }

/-- 7761, privileged (R240). -/
def execEnterIfrRir (b : BitVec 3) (y : BitVec 15) (s : State) : Result :=
  privileged s <|
    let (o, s1) := operandAddr true b y s
    (readAt o true 0 s1).andThen fun w0 s2 =>
      (readAt o true 1 s2).andThen fun w1 s3 => .next (loadIfrRir w0 w1 s3)

/-- 7762, privileged (R242). -/
def execLoadPlr (b : BitVec 3) (y : BitVec 15) (s : State) : Result :=
  privileged s <|
    (readWord b y s).andThen fun w s1 =>
      .next (s1.setCtl { s1.ctl with plrUL := w.extractLsb' 15 11, plrLL := w.extractLsb' 0 11 })

/-- 7765, privileged: the value stored includes the f1 that step 7 has just written, unless it is held (R243). -/
def execStoreIfr (b : BitVec 3) (y : BitVec 15) (s : State) : Result :=
  privileged s <|
    let (o, s1) := operandAddr true b y s
    (writeAt o true 0 .whole s1.ctl.ifr id s1).andThen fun _ s2 => .next s2

/-- 7766, privileged (R244). -/
def execEnterRir (b : BitVec 3) (y : BitVec 15) (s : State) : Result :=
  privileged s <|
    (readWord b y s).andThen fun w s1 => .next (s1.setCtl { s1.ctl with rirIV := w.extractLsb' 6 11, rirActive := true })

/-- The words of an operand go into registers one after the other, from register n on (20_memory.md R87). -/
def enterWords (put : Nat → Word → State → State) (o : OpAddr) (n : Nat) : Nat → State → Result
  | 0, s => .next s
  | m + 1, s => (readAt o true n s).andThen fun w s1 => enterWords put o (n + 1) m (put n w s1)

/-- 7771: the worker set is written whichever set is active, with all physical bits (R245). -/
def execEnterBWorker (b : BitVec 3) (y : BitVec 15) (s : State) : Result :=
  let (o, s1) := operandAddr true b y s
  enterWords (fun n w t => t.setBWork (t.bWork.write (BitVec.ofNat 3 (n + 1)) (w.setWidth 17))) o 0 7 s1

/-- The worker set as seven words, zero-filled (R246). -/
def workerWords (r : BSet) : List Word :=
  [r.b1.setWidth 30, r.b2.setWidth 30, r.b3.setWidth 30, r.b4.setWidth 30, r.b5.setWidth 30, r.b6.setWidth 30, r.b7.setWidth 30]

/-- 7775 (R246). -/
def execStoreBWorker (b : BitVec 3) (y : BitVec 15) (s : State) : Result :=
  let (o, s1) := operandAddr true b y s
  (writeWords o .whole 0 (workerWords s.bWork) s1).andThen fun _ s2 => .next s2

/-- A with character n (0 the leftmost) replaced (R247). -/
def putChar (n : Nat) (c : BitVec 6) (a : Word) : Word :=
  let sh := 24 - 6 * n
  (a &&& ~~~((0o77#30) <<< sh)) ||| (c.setWidth 30 <<< sh)

/-- Character n of A (R249). -/
def charOf (n : Nat) (a : Word) : BitVec 6 := a.extractLsb' (24 - 6 * n) 6

/-- 7731: five characters from bits 5 to 0 of successive words (R247). -/
def execCharPackLower (b : BitVec 3) (y : BitVec 15) (s : State) : Result :=
  let (o, s1) := operandAddr true b y s
  enterWords (fun n w t => t.setA (putChar n (w.extractLsb' 0 6) t.a)) o 0 5 s1

/-- 7732: five characters from bits 20 to 15 of successive words (R248). -/
def execCharPackUpper (b : BitVec 3) (y : BitVec 15) (s : State) : Result :=
  let (o, s1) := operandAddr true b y s
  enterWords (fun n w t => t.setA (putChar n (w.extractLsb' 15 6) t.a)) o 0 5 s1

/-- The five characters of A, each alone in a word. -/
def charWords (a : Word) : List Word := (List.range 5).map fun n => (charOf n a).setWidth 30

/-- 7735: the upper halves are left undisturbed (R249, D20). -/
def execCharUnpackLower (b : BitVec 3) (y : BitVec 15) (s : State) : Result :=
  let (o, s1) := operandAddr true b y s
  (writeWords o .lower 0 (charWords s.a) s1).andThen fun _ s2 => .next s2

/-- 7736: the lower halves are left undisturbed (R250, D20). -/
def execCharUnpackUpper (b : BitVec 3) (y : BitVec 15) (s : State) : Result :=
  let (o, s1) := operandAddr true b y s
  (writeWords o .upper 0 (charWords s.a) s1).andThen fun _ s2 => .next s2

end Sys2Proof.Machine
end

