-- ==== Sys2Proof/Machine/Sequence.lean ====
section
/-! DEFINITION. Sequence-modifying instructions (48_sequence.md); the Repeat sequence itself runs in Machine/Cycle.lean. -/

namespace Sys2Proof.Machine

open Sys2Proof

/-- `RepeatCount(k)` (R432, D34). -/
def repeatCount (k : BitVec 3) (v : Word) : Addr :=
  match k with
  | 0#3 => v.setWidth 17
  | 3#3 => v.setWidth 17
  | 7#3 => v.setWidth 17
  | _ => (lowerHalf v).setWidth 17

/-- 70: the count goes to all physical bits of B7; a count of 0 skips the next instruction (R431). -/
def execRepeatInstr (j k b : BitVec 3) (y : BitVec 15) (s : State) : Result :=
  let h := hazardView s
  (readOperand true k b y (spendHazard s)).andThen fun v s1 =>
    let n := repeatCount k v
    let s2 := bWritePhysical (h.getD (bView s1)) 7#3 n s1
    if n = 0 then .next (s2.setPc (s2.pc + 1))
    else .next (s2.setRep { s2.rep with active := true, j := j, first := true, word := none })

/-- `equal71(Y, j, k)` on the value of B_j and its width (R443). -/
def equal71 (k : BitVec 3) (v : Word) (bj : Addr) (w : Nat) : Bool :=
  match k with
  | 1#3 => (lowerHalf v).setWidth 17 == bj
  | 2#3 => (lowerHalf v).setWidth 17 == bj
  | 4#3 => v == sextHalf (bj.setWidth 15)
  | 5#3 => v == sextHalf (bj.setWidth 15)
  | 6#3 => v == sextHalf (bj.setWidth 15)
  | _ => cutTo w (v.setWidth 17) == bj

/-- 71 (R442, C4, D37). -/
def execBSkip (j k b : BitVec 3) (y : BitVec 15) (s : State) : Result :=
  let h := hazardView s
  (readOperand true k b y (spendHazard s)).andThen fun v s1 =>
    let view := h.getD (bView s1)
    if j = 0#3 then .next (skipIf (v == 0) s1)
    else
      let bj := bReadIn view j s1
      if equal71 k v bj (bWidth view j) then .next (skipIf true (bWriteIn view j 0 s1))
      else .next (bWriteIn view j (bj + 1) s1)

/-- 72: j = 0 is no operation (R444). -/
def execBJump (j k b : BitVec 3) (y : BitVec 15) (s : State) : Result :=
  if j = 0#3 then .next (capture s.pc s)
  else
    let h := hazardView s
    (jumpOperand k b y (spendHazard s)).andThen fun v s1 =>
      let view := h.getD (bView s1)
      let bj := bReadIn view j s1
      if bj = 0 then .next s1
      else jumpTo b (jumpRel k v s1) (eitherB view (bSetOf view s1)) id (bWriteIn view j (bj - 1) s1)

/-- 7752: read, test and set in one step (R445, D13). Directly after 7761 the write uses the read's own conversion again, unchecked,
which is the model's choice (log 58). -/
def execTestAndSet (b : BitVec 3) (y : BitVec 15) (s : State) : Result :=
  let (o, s1) := operandAddr true b y s
  (readAt o true 0 s1).andThen fun w s2 =>
    if w.getLsbD 14 then raise .testAndSet none s2
    else (writeAt o true 0 .lower 0o77777#30 id s2).andThen fun _ s3 => .next s3

/-- 7754: the system call; f1 holds `ybar` (R446, 60_exceptions.md R553). -/
def execExecutiveReturn (b : BitVec 3) (y : BitVec 15) (s : State) : Result :=
  (dataOperand true b y s).andThen fun _ s1 => raise .executiveReturn none s1

end Sys2Proof.Machine
end

