-- ==== Sys2Proof/Machine/Shift.lean ====
section
/-! DEFINITION. Shift instructions (40_shift.md). -/

namespace Sys2Proof.Machine

open Sys2Proof

/-- The shift count, the low six bits of the operand; a count above 59 may not be used (R200, U6). -/
def countOf (low : BitVec 6) (s : State) : Res Nat :=
  if low.toNat ≤ 59 then .ok low.toNat s else .stop (.refused .shiftCountAbove59)

/-- A normal-word shift: count, new registers, skip on them (R200, R211). -/
def shiftNormal (f : Nat → State → State) (j k b : BitVec 3) (y : BitVec 15) (s : State) : Result :=
  ((readOperand true k b y s).bind fun v s1 => countOf (v.setWidth 6) s1).andThen fun n s2 => endNormal j (f n s2)

/-- A logical right shift: the count is the low six bits of `ybar`, no storage reference and no skip (R200, D17). -/
def shiftLogical (f : Nat → State → State) (b : BitVec 3) (y : BitVec 15) (s : State) : Result :=
  ((dataOperand true b y s).bind fun r s1 => countOf (r.setWidth 6) s1).andThen fun n s2 => .next (f n s2)

/-- 01 (R201). -/
def execRightShiftQ (j k b : BitVec 3) (y : BitVec 15) (s : State) : Result :=
  shiftNormal (fun n t => t.setQ (shiftRightSign t.q n)) j k b y s

/-- 02 (R202). -/
def execRightShiftA (j k b : BitVec 3) (y : BitVec 15) (s : State) : Result :=
  shiftNormal (fun n t => t.setA (shiftRightSign t.a n)) j k b y s

/-- 03 (R203). -/
def execRightShiftAq (j k b : BitVec 3) (y : BitVec 15) (s : State) : Result :=
  shiftNormal (fun n t => setAq (shiftRightSign (aq t) n) t) j k b y s

/-- 05 (R204). -/
def execLeftShiftQ (j k b : BitVec 3) (y : BitVec 15) (s : State) : Result :=
  shiftNormal (fun n t => t.setQ (shiftLeftAround t.q n)) j k b y s

/-- 06 (R205). -/
def execLeftShiftA (j k b : BitVec 3) (y : BitVec 15) (s : State) : Result :=
  shiftNormal (fun n t => t.setA (shiftLeftAround t.a n)) j k b y s

/-- 07 (R206). -/
def execLeftShiftAq (j k b : BitVec 3) (y : BitVec 15) (s : State) : Result :=
  shiftNormal (fun n t => setAq (shiftLeftAround (aq t) n) t) j k b y s

/-- 7751 (R207). -/
def execLogicalRightShiftQ (b : BitVec 3) (y : BitVec 15) (s : State) : Result :=
  shiftLogical (fun n t => t.setQ (shiftRightZero t.q n)) b y s

/-- 7755 (R208). -/
def execLogicalRightShiftA (b : BitVec 3) (y : BitVec 15) (s : State) : Result :=
  shiftLogical (fun n t => t.setA (shiftRightZero t.a n)) b y s

/-- 7756 (R209). -/
def execLogicalRightShiftAq (b : BitVec 3) (y : BitVec 15) (s : State) : Result :=
  shiftLogical (fun n t => setAq (shiftRightZero (aq t) n) t) b y s

/-- 7730 (R210, D18). -/
def execScaleFactorShift (b : BitVec 3) (y : BitVec 15) (s : State) : Result :=
  let s1 := captureUnused b y s
  let (a, c) := scaleLoop 28 s1.a 0
  .next ((s1.setA a).setQ (BitVec.ofNat 30 c))

end Sys2Proof.Machine
end

