-- ==== Sys2Proof/Machine/System.lean ====
section
/-! DEFINITION. Illegal and unassigned codes (30_encoding.md R170 to R172). -/

namespace Sys2Proof.Machine

open Sys2Proof

/-- Illegal Instruction in every mode, before f1 is written (R170, 60_exceptions.md R551). -/
def illegalCode (s : State) : Result := raise .illegalInstruction none s

/-- An unassigned code only advances P; f1 is written as for any non-jump instruction (R171). -/
def noOperation (b : BitVec 3) (y : BitVec 15) (s : State) : Result := .next (captureUnused b y s)

/-- 00 (R170). -/
def execIllegal00 (_j _k _b : BitVec 3) (_y : BitVec 15) (s : State) : Result := illegalCode s

/-- 7700 (R170). -/
def execIllegal7700 (_b : BitVec 3) (_y : BitVec 15) (s : State) : Result := illegalCode s

/-- 7704 (R171). -/
def execUnassigned7704 (b : BitVec 3) (y : BitVec 15) (s : State) : Result := noOperation b y s

/-- 7720 (R171). -/
def execUnassigned7720 (b : BitVec 3) (y : BitVec 15) (s : State) : Result := noOperation b y s

/-- 7750 (R171). -/
def execUnassigned7750 (b : BitVec 3) (y : BitVec 15) (s : State) : Result := noOperation b y s

/-- 7760, privileged (R171, R172). -/
def execUnassigned7760 (b : BitVec 3) (y : BitVec 15) (s : State) : Result := privileged s (noOperation b y s)

/-- 7763, privileged (R171, R172). -/
def execUnassigned7763 (b : BitVec 3) (y : BitVec 15) (s : State) : Result := privileged s (noOperation b y s)

/-- 7764, privileged (R171, R172). -/
def execUnassigned7764 (b : BitVec 3) (y : BitVec 15) (s : State) : Result := privileged s (noOperation b y s)

/-- 7767, privileged (R171, R172). -/
def execUnassigned7767 (b : BitVec 3) (y : BitVec 15) (s : State) : Result := privileged s (noOperation b y s)

/-- 7774, privileged (R171, R172). -/
def execUnassigned7774 (b : BitVec 3) (y : BitVec 15) (s : State) : Result := privileged s (noOperation b y s)

/-- 7776, privileged (R171, R172). -/
def execUnassigned7776 (b : BitVec 3) (y : BitVec 15) (s : State) : Result := privileged s (noOperation b y s)

/-- 7777, privileged (R171, R172). -/
def execUnassigned7777 (b : BitVec 3) (y : BitVec 15) (s : State) : Result := privileged s (noOperation b y s)

end Sys2Proof.Machine
end

