-- ==== Sys2Proof/Machine/Dispatch.lean ====
section
/-! DEFINITION. The dispatch: one arm per instruction, each one call of its meaning. -/

namespace Sys2Proof.Machine

open Sys2Proof

def exec (i : Instr) (s : State) : Host.Outcome State Fault Refusal :=
  match i with
  | .illegal00 j k b y => Sys2Proof.Machine.execIllegal00 j k b y s
  | .rightShiftQ j k b y => Sys2Proof.Machine.execRightShiftQ j k b y s
  | .rightShiftA j k b y => Sys2Proof.Machine.execRightShiftA j k b y s
  | .rightShiftAq j k b y => Sys2Proof.Machine.execRightShiftAq j k b y s
  | .compare j k b y => Sys2Proof.Machine.execCompare j k b y s
  | .leftShiftQ j k b y => Sys2Proof.Machine.execLeftShiftQ j k b y s
  | .leftShiftA j k b y => Sys2Proof.Machine.execLeftShiftA j k b y s
  | .leftShiftAq j k b y => Sys2Proof.Machine.execLeftShiftAq j k b y s
  | .enterQ j k b y => Sys2Proof.Machine.execEnterQ j k b y s
  | .enterA j k b y => Sys2Proof.Machine.execEnterA j k b y s
  | .enterB j k b y => Sys2Proof.Machine.execEnterB j k b y s
  | .sendExternalFunction jh kh b y => Sys2Proof.Machine.execSendExternalFunction jh kh b y s
  | .storeQ j k b y => Sys2Proof.Machine.execStoreQ j k b y s
  | .storeA j k b y => Sys2Proof.Machine.execStoreA j k b y s
  | .storeB j k b y => Sys2Proof.Machine.execStoreB j k b y s
  | .storeChannel jh kh b y => Sys2Proof.Machine.execStoreChannel jh kh b y s
  | .addA j k b y => Sys2Proof.Machine.execAddA j k b y s
  | .subtractA j k b y => Sys2Proof.Machine.execSubtractA j k b y s
  | .multiply j k b y => Sys2Proof.Machine.execMultiply j k b y s
  | .divide j k b y => Sys2Proof.Machine.execDivide j k b y s
  | .replaceAPlusY j k b y => Sys2Proof.Machine.execReplaceAPlusY j k b y s
  | .replaceAMinusY j k b y => Sys2Proof.Machine.execReplaceAMinusY j k b y s
  | .addQ j k b y => Sys2Proof.Machine.execAddQ j k b y s
  | .subtractQ j k b y => Sys2Proof.Machine.execSubtractQ j k b y s
  | .enterYPlusQ j k b y => Sys2Proof.Machine.execEnterYPlusQ j k b y s
  | .enterYMinusQ j k b y => Sys2Proof.Machine.execEnterYMinusQ j k b y s
  | .storeAPlusQ j k b y => Sys2Proof.Machine.execStoreAPlusQ j k b y s
  | .storeAMinusQ j k b y => Sys2Proof.Machine.execStoreAMinusQ j k b y s
  | .replaceYPlusQ j k b y => Sys2Proof.Machine.execReplaceYPlusQ j k b y s
  | .replaceYMinusQ j k b y => Sys2Proof.Machine.execReplaceYMinusQ j k b y s
  | .replaceYPlus1 j k b y => Sys2Proof.Machine.execReplaceYPlus1 j k b y s
  | .replaceYMinus1 j k b y => Sys2Proof.Machine.execReplaceYMinus1 j k b y s
  | .enterLp j k b y => Sys2Proof.Machine.execEnterLp j k b y s
  | .addLp j k b y => Sys2Proof.Machine.execAddLp j k b y s
  | .subtractLp j k b y => Sys2Proof.Machine.execSubtractLp j k b y s
  | .compareMasked j k b y => Sys2Proof.Machine.execCompareMasked j k b y s
  | .replaceLp j k b y => Sys2Proof.Machine.execReplaceLp j k b y s
  | .replaceAPlusLp j k b y => Sys2Proof.Machine.execReplaceAPlusLp j k b y s
  | .replaceAMinusLp j k b y => Sys2Proof.Machine.execReplaceAMinusLp j k b y s
  | .storeLp j k b y => Sys2Proof.Machine.execStoreLp j k b y s
  | .selectiveSet j k b y => Sys2Proof.Machine.execSelectiveSet j k b y s
  | .selectiveComplement j k b y => Sys2Proof.Machine.execSelectiveComplement j k b y s
  | .selectiveClear j k b y => Sys2Proof.Machine.execSelectiveClear j k b y s
  | .selectiveSubstitute j k b y => Sys2Proof.Machine.execSelectiveSubstitute j k b y s
  | .replaceSelectiveSet j k b y => Sys2Proof.Machine.execReplaceSelectiveSet j k b y s
  | .replaceSelectiveComplement j k b y => Sys2Proof.Machine.execReplaceSelectiveComplement j k b y s
  | .replaceSelectiveClear j k b y => Sys2Proof.Machine.execReplaceSelectiveClear j k b y s
  | .replaceSelectiveSubstitute j k b y => Sys2Proof.Machine.execReplaceSelectiveSubstitute j k b y s
  | .jumpArithmetic j k b y => Sys2Proof.Machine.execJumpArithmetic j k b y s
  | .jumpManual j k b y => Sys2Proof.Machine.execJumpManual j k b y s
  | .jumpActiveInput jh kh b y => Sys2Proof.Machine.execJumpActiveInput jh kh b y s
  | .jumpActiveOutput jh kh b y => Sys2Proof.Machine.execJumpActiveOutput jh kh b y s
  | .returnJumpArithmetic j k b y => Sys2Proof.Machine.execReturnJumpArithmetic j k b y s
  | .returnJumpManual j k b y => Sys2Proof.Machine.execReturnJumpManual j k b y s
  | .terminateInput jh kh b y => Sys2Proof.Machine.execTerminateInput jh kh b y s
  | .terminateOutput jh kh b y => Sys2Proof.Machine.execTerminateOutput jh kh b y s
  | .repeatInstr j k b y => Sys2Proof.Machine.execRepeatInstr j k b y s
  | .bSkip j k b y => Sys2Proof.Machine.execBSkip j k b y s
  | .bJump j k b y => Sys2Proof.Machine.execBJump j k b y s
  | .activateInput jh kh b y => Sys2Proof.Machine.execActivateInput jh kh b y s
  | .activateOutput jh kh b y => Sys2Proof.Machine.execActivateOutput jh kh b y s
  | .activateInputMonitor jh kh b y => Sys2Proof.Machine.execActivateInputMonitor jh kh b y s
  | .activateOutputMonitor jh kh b y => Sys2Proof.Machine.execActivateOutputMonitor jh kh b y s
  | .illegal7700 b y => Sys2Proof.Machine.execIllegal7700 b y s
  | .fpAdd b y => Sys2Proof.Machine.execFpAdd b y s
  | .fpSubtract b y => Sys2Proof.Machine.execFpSubtract b y s
  | .fpMultiply b y => Sys2Proof.Machine.execFpMultiply b y s
  | .unassigned7704 b y => Sys2Proof.Machine.execUnassigned7704 b y s
  | .fpDivide b y => Sys2Proof.Machine.execFpDivide b y s
  | .fpPack b y => Sys2Proof.Machine.execFpPack b y s
  | .fpUnpack b y => Sys2Proof.Machine.execFpUnpack b y s
  | .decimalTest b y => Sys2Proof.Machine.execDecimalTest b y s
  | .decimalAdd b y => Sys2Proof.Machine.execDecimalAdd b y s
  | .decimalSubtract b y => Sys2Proof.Machine.execDecimalSubtract b y s
  | .decimalCompareEqual b y => Sys2Proof.Machine.execDecimalCompareEqual b y s
  | .decimalComplement b y => Sys2Proof.Machine.execDecimalComplement b y s
  | .decimalAddCarry b y => Sys2Proof.Machine.execDecimalAddCarry b y s
  | .decimalSubtractBorrow b y => Sys2Proof.Machine.execDecimalSubtractBorrow b y s
  | .decimalCompareLess b y => Sys2Proof.Machine.execDecimalCompareLess b y s
  | .unassigned7720 b y => Sys2Proof.Machine.execUnassigned7720 b y s
  | .enterAq b y => Sys2Proof.Machine.execEnterAq b y s
  | .addAq b y => Sys2Proof.Machine.execAddAq b y s
  | .compareAqEqual b y => Sys2Proof.Machine.execCompareAqEqual b y s
  | .complementAq b y => Sys2Proof.Machine.execComplementAq b y s
  | .storeAq b y => Sys2Proof.Machine.execStoreAq b y s
  | .subtractAq b y => Sys2Proof.Machine.execSubtractAq b y s
  | .compareAqLess b y => Sys2Proof.Machine.execCompareAqLess b y s
  | .scaleFactorShift b y => Sys2Proof.Machine.execScaleFactorShift b y s
  | .charPackLower b y => Sys2Proof.Machine.execCharPackLower b y s
  | .charPackUpper b y => Sys2Proof.Machine.execCharPackUpper b y s
  | .decimalConvertLower b y => Sys2Proof.Machine.execDecimalConvertLower b y s
  | .decimalConvertUpper b y => Sys2Proof.Machine.execDecimalConvertUpper b y s
  | .charUnpackLower b y => Sys2Proof.Machine.execCharUnpackLower b y s
  | .charUnpackUpper b y => Sys2Proof.Machine.execCharUnpackUpper b y s
  | .executeRemote b y => Sys2Proof.Machine.execExecuteRemote b y s
  | .enterB0Jump b y => Sys2Proof.Machine.execEnterB0Jump b y s
  | .enterB1Jump b y => Sys2Proof.Machine.execEnterB1Jump b y s
  | .enterB2Jump b y => Sys2Proof.Machine.execEnterB2Jump b y s
  | .enterB3Jump b y => Sys2Proof.Machine.execEnterB3Jump b y s
  | .enterB4Jump b y => Sys2Proof.Machine.execEnterB4Jump b y s
  | .enterB5Jump b y => Sys2Proof.Machine.execEnterB5Jump b y s
  | .enterB6Jump b y => Sys2Proof.Machine.execEnterB6Jump b y s
  | .enterB7Jump b y => Sys2Proof.Machine.execEnterB7Jump b y s
  | .unassigned7750 b y => Sys2Proof.Machine.execUnassigned7750 b y s
  | .logicalRightShiftQ b y => Sys2Proof.Machine.execLogicalRightShiftQ b y s
  | .testAndSet b y => Sys2Proof.Machine.execTestAndSet b y s
  | .maskedAlphaEqual b y => Sys2Proof.Machine.execMaskedAlphaEqual b y s
  | .executiveReturn b y => Sys2Proof.Machine.execExecutiveReturn b y s
  | .logicalRightShiftA b y => Sys2Proof.Machine.execLogicalRightShiftA b y s
  | .logicalRightShiftAq b y => Sys2Proof.Machine.execLogicalRightShiftAq b y s
  | .maskedAlphaLess b y => Sys2Proof.Machine.execMaskedAlphaLess b y s
  | .unassigned7760 b y => Sys2Proof.Machine.execUnassigned7760 b y s
  | .enterIfrRir b y => Sys2Proof.Machine.execEnterIfrRir b y s
  | .loadPlr b y => Sys2Proof.Machine.execLoadPlr b y s
  | .unassigned7763 b y => Sys2Proof.Machine.execUnassigned7763 b y s
  | .unassigned7764 b y => Sys2Proof.Machine.execUnassigned7764 b y s
  | .storeIfr b y => Sys2Proof.Machine.execStoreIfr b y s
  | .enterRir b y => Sys2Proof.Machine.execEnterRir b y s
  | .unassigned7767 b y => Sys2Proof.Machine.execUnassigned7767 b y s
  | .initiateSyncInterrupt b y => Sys2Proof.Machine.execInitiateSyncInterrupt b y s
  | .enterBWorker b y => Sys2Proof.Machine.execEnterBWorker b y s
  | .storeChannelNumber b y => Sys2Proof.Machine.execStoreChannelNumber b y s
  | .enterCsr b y => Sys2Proof.Machine.execEnterCsr b y s
  | .unassigned7774 b y => Sys2Proof.Machine.execUnassigned7774 b y s
  | .storeBWorker b y => Sys2Proof.Machine.execStoreBWorker b y s
  | .unassigned7776 b y => Sys2Proof.Machine.execUnassigned7776 b y s
  | .unassigned7777 b y => Sys2Proof.Machine.execUnassigned7777 b y s

end Sys2Proof.Machine
end

