-- ==== Sys2Proof/Machine/Environment.lean ====
section
/-! DEFINITION. What the other agents do: the channel transfers of the I/O logic (49_io.md R480 to R500), the clocks
(60_exceptions.md R580 to R584), the signals of devices and of other CPUs, and the operator (70_reset_and_hazards.md R600 to R605). -/

namespace Sys2Proof.Machine

open Sys2Proof

/-- A request enters `PENDING`, which is a set (10_state.md R56, D7). -/
def request (x : CondInt) (s : State) : State := if s.pending.contains x then s else s.setPending (x :: s.pending)

/-- `CH_MODE[c]`; channel 0 is ISI (R480). -/
def channelMode (s : State) (c : Fin 24) : ChannelMode := if c ≠ 0 ∧ s.cfg.esiWired[c] = true then .esi else .isi

/-- Another agent has written the word: the CPU's own last write of it is no longer the latest one, so the word from before that
write can no longer be fetched (20_memory.md R130, R133, log 27). -/
def dropOverlap (a : Addr) (s : State) : State := s.setOverlap (s.overlap.filter fun c => c.1 != a)

/-- A write of one part of a word by an agent other than the CPU, with its parity bit. -/
def agentStore (a : Addr) (p : Part) (v : Word) (s : State) : State :=
  dropOverlap a ((s.setMem (s.mem.set a.toNat (mergePart p (wordAt s a) v))).setParity (mendPart s.parity a p))

/-- The update of a buffer control word (R481, D40). -/
structure BcwStep where
  /-- Where the data word goes. -/
  addr : Addr
  /-- The BCW written back. -/
  next : Word
  /-- The count has reached 0. -/
  done : Bool
  deriving DecidableEq, Repr

def bcwUpdate (w : Word) : BcwStep :=
  let a : Addr := w.extractLsb' 0 17
  let count : BitVec 12 := w.extractLsb' 18 12 - 1
  ⟨a, count ++ w.extractLsb' 17 1 ++ (a + 1), count == 0⟩

/-- Where the BCW of a transfer is: the channel's BCR, or the ESI location the device names (R482 to R485). -/
def bcwLocation (input : Bool) (c : Fin 24) (s : State) : Addr :=
  match channelMode s c with
  | .esi => fixedAddr s (lowerHalf (chan s c).inLines)
  | .isi => fixedAddr s (if input then inputBcr c else outputBcr c)

/-- The CPU acknowledges an input word and the device drops IDR (R460). -/
def acknowledgeInput (c : Fin 24) (s : State) : State := emit (.inputAck c) (putChan c { chan s c with idr := false } s)

/-- The CPU sends a word with a signal and the device drops ODR (R460). -/
def sendWord (x : Signal) (c : Fin 24) (s : State) : State := emit x (putChan c { chan s c with odr := false } s)

/-- A parity error in the read of the BCW (R489). -/
def bcwParityError (input : Bool) (c : Fin 24) (loc : Addr) (s : State) : State :=
  let s1 := dropOverlap loc ((s.setMem (s.mem.set loc.toNat 0)).setParity (spoilHalf (spoilHalf s.parity loc false) loc true))
  let s2 :=
    match input, channelMode s c with
    | true, .esi => acknowledgeInput c s1
    | true, .isi => putChan c { chan s1 c with inActive := false } s1
    | false, .esi => sendWord (.outputAck c (BitVec.allOnes 30)) c s1
    | false, .isi =>
      let s3 := sendWord (.outputAck c (BitVec.allOnes 30)) c s1
      putChan c { chan s3 c with outActive := false } s3
  request (.bcwParity c) s2

/-- An input transfer: the data word is stored where the BCW says and acknowledged; the channel is deactivated with the last word
(R482, R484, R490). -/
def inputTransfer (c : Fin 24) (s : State) : Result :=
  let loc := bcwLocation true c s
  if !installed s loc then .fault .storageNotInstalled
  else if wordBad s loc then .next (bcwParityError true c loc s)
  else
    let u := bcwUpdate (wordAt s loc)
    let s1 := agentStore loc .whole u.next s
    if !installed s u.addr then .fault .storageNotInstalled
    else
      let s2 :=
        match channelMode s c with
        | .isi => agentStore u.addr .whole (chan s c).inLines s1
        | .esi =>
          let t := agentStore u.addr .upper ((upperHalf (chan s c).inLines).setWidth 30) s1
          if testReadBad s1 u.addr .upper then request (.ioDataParity c) t else t
      let s3 := acknowledgeInput c s2
      if u.done then
        let s4 := putChan c { chan s3 c with inActive := false } s3
        if (chan s c).inMon then
          .next (request (match channelMode s c with | .isi => .inputMonitorIsi c | .esi => .inputMonitorEsi c) s4)
        else .next s4
      else .next s3

/-- The ODR after the last word of an ISI output buffer: the channel is deactivated and no word is sent (R483, log 36). -/
def outputFinish (c : Fin 24) (s : State) : State :=
  let s1 := putChan c { chan s c with outActive := false, outDone := false } s
  if (chan s c).outMon then request (.outputMonitorIsi c) s1 else s1

/-- An output transfer (R483, R485, R486, R490). -/
def outputTransfer (c : Fin 24) (s : State) : Result :=
  match channelMode s c, (chan s c).outDone with
  | .isi, true => .next (outputFinish c s)
  | mode, _ =>
    let loc := bcwLocation false c s
    if !installed s loc then .fault .storageNotInstalled
    else if wordBad s loc then .next (bcwParityError false c loc s)
    else
      let u := bcwUpdate (wordAt s loc)
      let s1 := agentStore loc .whole u.next s
      if !installed s u.addr then .fault .storageNotInstalled
      else
        let w := wordAt s1 u.addr
        let signal : Signal :=
          match mode with
          | .isi => if (chan s c).efActive then .externalFunction c w else .outputAck c w
          | .esi => .outputAck c w
        let s2 := sendWord signal c s1
        let s3 := if wordBad s1 u.addr then request (.ioDataParity c) s2 else s2
        if u.done then
          match mode with
          | .isi => .next (putChan c { chan s3 c with outDone := true } s3)
          | .esi =>
            let bcr := fixedAddr s (outputBcr c)
            if !installed s bcr then .fault .storageNotInstalled
            else
              let s4 := agentStore bcr .lower (chan s c).inLines s3
              let s5 := putChan c { chan s4 c with outActive := false } s4
              .next (if (chan s c).outMon then request (.outputMonitorEsi c) s5 else s5)
        else .next s3

/-- The day clock word is written (60_exceptions.md R580). -/
def dayClockUpdate (t : BitVec 22) (s : State) : Result :=
  let a := fixedAddr s 0o16#15
  if installed s a then .next ((agentStore a .whole (t ++ 0#8) s).setClk { s.clk with dayData := none })
  else .fault .storageNotInstalled

/-- The real-time clock word is counted up; its recycling requests an interrupt (R583, R584). That the parity of the old word is not
checked is the model's choice (log 37). -/
def rtcUpdate (s : State) : Result :=
  let a := fixedAddr s 0o17#15
  if installed s a then
    let c : BitVec 18 := (wordAt s a).extractLsb' 0 18
    let s1 := (agentStore a .whole ((c + 1).setWidth 30) s).setClk { s.clk with rtcTicks := s.clk.rtcTicks - 1 }
    .next (if c = BitVec.allOnes 18 then request .realTimeClock s1 else s1)
  else .fault .storageNotInstalled

/-- What the I/O logic can be asked to do, apart from 13 and 17, which are instructions (49_io.md R500). -/
inductive IoFunction where
  | output (c : Fin 24)
  | input (c : Fin 24)
  | dayClock
  | realTimeClock
  deriving DecidableEq, Repr

/-- Channels from `hi` downwards, `n` of them. -/
def channelsDown (hi : Fin 24) : Nat → List (Fin 24)
  | 0 => []
  | n + 1 => hi :: channelsDown (hi - 1) n

/-- The function priority, best first (R500). -/
def functionOrder : List IoFunction :=
  [.output 15, .input 15] ++ (channelsDown 14 7).map .output ++ (channelsDown 14 7).map .input ++
    (channelsDown 23 8).map .output ++ (channelsDown 23 8).map .input ++ (channelsDown 7 8).map .output ++
    (channelsDown 7 8).map .input ++ [.dayClock, .realTimeClock]

/-- A request is up and its channel active (R482 to R485). -/
def functionUp (s : State) : IoFunction → Bool
  | .output c => fitted s.cfg c && (chan s c).outActive && (chan s c).odr
  | .input c => fitted s.cfg c && (chan s c).inActive && (chan s c).idr
  | .dayClock => s.clk.dayData.isSome
  | .realTimeClock => decide (0 < s.clk.rtcTicks)

def serve (f : IoFunction) (s : State) : Result :=
  match f with
  | .output c => outputTransfer c s
  | .input c => inputTransfer c s
  | .dayClock =>
    match s.clk.dayData with
    | some t => dayClockUpdate t s
    | none => .next s
  | .realTimeClock => rtcUpdate s

/-- The I/O logic serves the best request that is up, if any (R500). -/
def serviceBest (s : State) : Result :=
  match functionOrder.find? (functionUp s) with
  | some f => serve f s
  | none => .next s

/-- A device's signal goes up or down on a fitted channel. -/
def onChannel (c : Fin 24) (f : Channel → Channel) (s : State) : State :=
  if fitted s.cfg c then putChan c (f (chan s c)) s else s

/-- EI rises: a request, once per rise (R488). -/
def externalUp (c : Fin 24) (s : State) : State :=
  if fitted s.cfg c && !(chan s c).ei then
    request (match channelMode s c with | .isi => .externalIsi c | .esi => .externalEsi c)
      (putChan c { chan s c with ei := true } s)
  else s

/-- Another CPU writes one part of a word of shared storage (60_exceptions.md R590, 20_memory.md R130, log 54). -/
def otherStore (a : Addr) (p : Part) (v : Word) (s : State) : Result :=
  if installed s a then .next (agentStore a p v s) else .fault .storageNotInstalled

/-- Another CPU's Test and Set: where bit 14 is 0 the lower half becomes ones, else that CPU takes the interrupt (R590, 20_memory.md
R132, log 54). That a wrong parity of the word is not checked here, and the word still set, is the model's choice (R125, log 54). -/
def otherTestAndSet (a : Addr) (s : State) : Result :=
  if installed s a then .next (if (wordAt s a).getLsbD 14 then s else agentStore a .lower 0o77777#30 s)
  else .fault .storageNotInstalled

/-- Channel flags after a master clear; the devices' own signals stay (70_reset_and_hazards.md R600). -/
def clearChannel (c : Channel) : Channel :=
  { c with inActive := false, outActive := false, inMon := false, outMon := false, efActive := false, outDone := false }

/-- The index registers with seven free values from the n-th on. -/
def freeBSet (n : Nat) : BSet :=
  let f (i w : Nat) : BitVec w := (Config.freeWord (n + i)).setWidth w
  ⟨f 0 15, f 1 15, f 2 15, f 3 17, f 4 17, f 5 17, f 6 17⟩

/-- Master clear (70_reset_and_hazards.md R600, R601): what R601 calls "any" takes free values (U18, log 41). -/
def masterClear (s : State) : State :=
  let n := s.free
  let f (i w : Nat) : BitVec w := (Config.freeWord (n + i)).setWidth w
  { s with
    a := f 0 30, q := f 1 30, pc := f 2 17
    bExec := freeBSet (n + 3)
    bWork := freeBSet (n + 10)
    ctl := { ifr := f 17 30, ifrActive := false, ifrHold := false, newIfr := .settled, oldIfr := f 18 30, reinit := false,
             plrUL := f 19 11, plrLL := f 20 11, rirIV := f 21 11, rirActive := false }
    sel := { csr := f 22 5, iasr := f 23 5, pecsr := f 24 5, useIasr := false, usePecsr := false }
    rep := { active := false, j := f 25 3, ybar := f 26 17, first := Config.freeBit (n + 27), word := none }
    run := false
    lockout := { locked := false, bySil := false, silTimer := 0 }
    pending := []
    chans := s.chans.map clearChannel
    overlap := []
    fetch := .program
    entryOpen := false
    free := n + 28 }

/-- Only a stopped CPU takes the operator's clears and loads (10_state.md R60, logs 49 and 50). -/
def whenStopped (f : State → State) (s : State) : State := if s.run then s else f s

/-- Time passes while a program of a guard mode has locked out interrupts (10_state.md R61). -/
def elapse (ns : Nat) (s : State) : State :=
  if s.lockout.locked && s.lockout.bySil && guardOn s then
    s.setLockout { s.lockout with silTimer := s.lockout.silTimer + ns }
  else s

/-- A signal on an incoming synchronizing line that is wired is a request (60_exceptions.md R565, log 47). -/
def syncSignal (l : Fin 2) (s : State) : State :=
  if s.cfg.syncIn[l] then request (if l = 0 then .sync0 else .sync1) s else s

/-- P is placed (70_reset_and_hazards.md R605): the next fetch is not the one that the last instruction's stores could overlap
(20_memory.md R133). On a CPU stopped inside a Repeat sequence, before an Execute Remote's target or before the instruction at an
interrupt's fixed address the spec is silent (R60, N23); that those stay, so that `start` goes on with them, is the model's choice
(log 50). -/
def placeP (a : Addr) (s : State) : State := (s.setPc a).setOverlap []

/-- What an event other than a CPU step does. -/
def respond (e : Event) (s : State) : Result :=
  match e with
  | .cpu _ => .next s
  | .inputLines c w => .next (onChannel c (fun x => { x with inLines := w }) s)
  | .idrUp c => .next (onChannel c (fun x => { x with idr := true }) s)
  | .idrDown c => .next (onChannel c (fun x => { x with idr := false }) s)
  | .odrUp c => .next (onChannel c (fun x => { x with odr := true }) s)
  | .odrDown c => .next (onChannel c (fun x => { x with odr := false }) s)
  | .eiUp c => .next (externalUp c s)
  | .eiDown c => .next (onChannel c (fun x => { x with ei := false }) s)
  | .service => serviceBest s
  | .dayClockRequest t => .next (s.setClk { s.clk with dayData := some t })
  | .dayClockTick => .next (request .dayClock s)
  | .rtcTick => .next (s.setClk { s.clk with rtcTicks := s.clk.rtcTicks + 1 })
  | .syncLine l => .next (syncSignal l s)
  | .otherStore a p w => otherStore a p w s
  | .otherTestAndSet a => otherTestAndSet a s
  | .powerLoss => .next (request .powerLoss s)
  | .elapsed ns => .next (elapse ns s)
  | .parityFault a u => .next (s.setParity (spoilHalf s.parity a u))
  | .setMsr m => .next (s.setPanel { s.panel with msr := m })
  | .setJumpKey n v =>
    .next (s.setPanel (match n with
      | 0 => { s.panel with key1 := v }
      | 1 => { s.panel with key2 := v }
      | 2 => { s.panel with key3 := v }))
  | .setStopKey n v =>
    .next (s.setPanel (match n with
      | 0 => { s.panel with stopKey5 := v }
      | 1 => { s.panel with stopKey6 := v }
      | 2 => { s.panel with stopKey7 := v }))
  | .setBankMode m => .next (s.setPanel { s.panel with bankMode := m })
  | .load a w => .next (whenStopped (fun t => if installed t a then agentStore a .whole w t else t) s)
  | .setP a => .next (whenStopped (placeP a) s)
  | .start => .next (s.setRun true)
  | .stop => .next (s.setRun false)
  | .masterClear => .next (whenStopped masterClear s)
  | .ioClear => .next (whenStopped (emit .ioClear) s)

end Sys2Proof.Machine
end

