-- ==== Sys2Proof/Machine/Cycle.lean ====
section
/-! DEFINITION. One step of the CPU (30_encoding.md R190): taking an interrupt that is due, one execution of a repeated instruction,
or one instruction fetched and run. -/

namespace Sys2Proof.Machine

open Sys2Proof

/-! ## Interrupts between instructions (60_exceptions.md R532 to R536, R552) -/

/-- The interrupt priority, 1 the best (R534). -/
def CondInt.rank : CondInt → Nat
  | .bcwParity _ => 1
  | .ioDataParity _ => 2
  | .powerLoss => 3
  | .externalEsi _ => 4
  | .inputMonitorEsi _ => 5
  | .outputMonitorEsi _ => 6
  | .externalIsi _ => 7
  | .inputMonitorIsi _ => 8
  | .outputMonitorIsi _ => 9
  | .dayClock => 10
  | .realTimeClock => 11
  | .sync0 => 12
  | .sync1 => 13

/-- The place of a channel in the order 15 to 8, 23 to 16, 7 to 0 (R535). -/
def channelPlace (c : Fin 24) : Nat :=
  if 8 ≤ c.val ∧ c.val ≤ 15 then 15 - c.val else if 16 ≤ c.val then 8 + (23 - c.val) else 16 + (7 - c.val)

/-- The channel's place within a rank; requests without a channel are alone in theirs. -/
def CondInt.place : CondInt → Nat
  | .bcwParity c => channelPlace c
  | .ioDataParity c => channelPlace c
  | .powerLoss => 0
  | .externalEsi c => channelPlace c
  | .inputMonitorEsi c => channelPlace c
  | .outputMonitorEsi c => channelPlace c
  | .externalIsi c => channelPlace c
  | .inputMonitorIsi c => channelPlace c
  | .outputMonitorIsi c => channelPlace c
  | .dayClock => 0
  | .realTimeClock => 0
  | .sync0 => 0
  | .sync1 => 0

/-- Rank first, channel second: the smaller key goes first (R534, R535). -/
def CondInt.key (x : CondInt) : Nat := 24 * x.rank + x.place

/-- The request that goes first. -/
def bestPending : List CondInt → Option CondInt
  | [] => none
  | x :: rest =>
    match bestPending rest with
    | none => some x
    | some y => if x.key ≤ y.key then some x else some y

/-- No hardware lockout holds (R533): not between 7761 and the next instruction, nor between 70 and the first execution of the
repeated one. Entries and Execute Remote targets are fetched without passing here. -/
def interruptible (s : State) : Bool :=
  s.ctl.newIfr != .due && !(s.rep.active && s.rep.first)

/-- The conditional interrupt that is due, if any (R532). -/
def dueInterrupt (s : State) : Option CondInt :=
  if s.run && !s.lockout.locked && interruptible s then bestPending s.pending else none

/-- Timeout is due: more than 100 microseconds locked out by SIL in guard mode (R552). -/
def timeoutDue (s : State) : Bool :=
  guardOn s && s.lockout.locked && s.lockout.bySil && decide (100000 < s.lockout.silTimer)

/-! ## One instruction -/

/-- The end of an instruction: `NEW_IFR_PENDING` counts down (41_transfer.md R241). -/
def settleIfr (s : State) : State :=
  match s.ctl.newIfr with
  | .settled => s
  | .loading => s.setCtl { s.ctl with newIfr := .due }
  | .due => activate s

/-- The instruction at an interrupt's fixed address is over: the RIR is cleared (60_exceptions.md R541 step 7, R542). -/
def closeEntry (s : State) : State :=
  if s.entryOpen then (s.setCtl { s.ctl with rirIV := 0 }).setEntryOpen false else s

/-- What follows an instruction that has run: nothing where it took an interrupt or named an Execute Remote target; otherwise the
countdown of 7761 and the end of an interrupt entry. An instruction after a 7761 with bit 29 set must have jumped (48_sequence.md
R441, U17). -/
def finish (wasReinit : Bool) (s : State) : Result :=
  if s.fetch ≠ .program then .next s
  else if wasReinit && s.ctl.reinit then .fault .reinitiationNotFollowedByJump
  else .next (closeEntry (settleIfr s))

/-- Runs an instruction whose word has been fetched. -/
def runInstr (i : Instr) (s : State) : Result :=
  match exec i ((s.setFetch .program).setOverlap []) with
  | .next s1 => finish s.ctl.reinit s1
  | .fault r => .fault r
  | .refused r => .refused r

/-- The word an instruction fetch sees: where the last instruction overwrote it, the old word or the new (20_memory.md R133, U4,
log 27). -/
def fetchedWord (a : Addr) (w : Word) (s : State) : Word × State :=
  match s.overlap.find? (fun c => c.1 == a) with
  | some (_, old) => if old = w then (w, s) else (if freeChoice s then w else old, spend s)
  | none => (w, s)

/-- An instruction in normal sequence: steps 2 to 8 of R190. P has advanced when the word is read (10_state.md R30). -/
def runProgram (s : State) : Result :=
  (cpuRead s.pc (s.setPc (s.pc + 1))).andThen fun w s1 =>
    let (w', s2) := fetchedWord s.pc w s1
    runInstr (decode w') s2

/-- An instruction out of sequence, at an absolute address, with P as it is: an interrupt's fixed address (60_exceptions.md R542). -/
def runFixed (n : BitVec 15) (s : State) : Result :=
  (cpuRead (fixedAddr s n) s).andThen fun w s1 => runInstr (decode w) s1

/-- 7737 and 70 may not be the target of an Execute Remote (47_jump.md R412, U15). -/
def remoteAllowed (i : Instr) : Bool :=
  match i with
  | .executeRemote _ _ => false
  | .repeatInstr _ _ _ _ => false
  | _ => true

/-- The target of an Execute Remote, with P as it is (47_jump.md R412). -/
def runRemote (a : Addr) (s : State) : Result :=
  (cpuRead a s).andThen fun w s1 =>
    if remoteAllowed (decode w) then runInstr (decode w) s1 else .fault .remoteTargetNotAllowed

/-! ## Repeat (48_sequence.md R431 to R441) -/

/-- The b and y designators of an instruction that may be repeated; `none` for the forbidden ones (R435). -/
def repeatFields (i : Instr) : Option (BitVec 3 × BitVec 15) :=
  match i with
  | .illegal00 _ _ _ _ => none
  | .rightShiftQ _ _ b y => some (b, y)
  | .rightShiftA _ _ b y => some (b, y)
  | .rightShiftAq _ _ b y => some (b, y)
  | .compare _ _ b y => some (b, y)
  | .leftShiftQ _ _ b y => some (b, y)
  | .leftShiftA _ _ b y => some (b, y)
  | .leftShiftAq _ _ b y => some (b, y)
  | .enterQ _ _ b y => some (b, y)
  | .enterA _ _ b y => some (b, y)
  | .enterB _ _ _ _ => none
  | .sendExternalFunction _ _ _ _ => none
  | .storeQ _ _ b y => some (b, y)
  | .storeA _ _ b y => some (b, y)
  | .storeB _ _ b y => some (b, y)
  | .storeChannel _ _ _ _ => none
  | .addA _ _ b y => some (b, y)
  | .subtractA _ _ b y => some (b, y)
  | .multiply _ _ b y => some (b, y)
  | .divide _ _ b y => some (b, y)
  | .replaceAPlusY _ _ b y => some (b, y)
  | .replaceAMinusY _ _ b y => some (b, y)
  | .addQ _ _ b y => some (b, y)
  | .subtractQ _ _ b y => some (b, y)
  | .enterYPlusQ _ _ b y => some (b, y)
  | .enterYMinusQ _ _ b y => some (b, y)
  | .storeAPlusQ _ _ b y => some (b, y)
  | .storeAMinusQ _ _ b y => some (b, y)
  | .replaceYPlusQ _ _ b y => some (b, y)
  | .replaceYMinusQ _ _ b y => some (b, y)
  | .replaceYPlus1 _ _ b y => some (b, y)
  | .replaceYMinus1 _ _ b y => some (b, y)
  | .enterLp _ _ b y => some (b, y)
  | .addLp _ _ b y => some (b, y)
  | .subtractLp _ _ b y => some (b, y)
  | .compareMasked _ _ b y => some (b, y)
  | .replaceLp _ _ b y => some (b, y)
  | .replaceAPlusLp _ _ b y => some (b, y)
  | .replaceAMinusLp _ _ b y => some (b, y)
  | .storeLp _ _ b y => some (b, y)
  | .selectiveSet _ _ b y => some (b, y)
  | .selectiveComplement _ _ b y => some (b, y)
  | .selectiveClear _ _ b y => some (b, y)
  | .selectiveSubstitute _ _ b y => some (b, y)
  | .replaceSelectiveSet _ _ b y => some (b, y)
  | .replaceSelectiveComplement _ _ b y => some (b, y)
  | .replaceSelectiveClear _ _ b y => some (b, y)
  | .replaceSelectiveSubstitute _ _ b y => some (b, y)
  | .jumpArithmetic _ _ _ _ => none
  | .jumpManual _ _ _ _ => none
  | .jumpActiveInput _ _ _ _ => none
  | .jumpActiveOutput _ _ _ _ => none
  | .returnJumpArithmetic _ _ _ _ => none
  | .returnJumpManual _ _ _ _ => none
  | .terminateInput _ _ _ _ => none
  | .terminateOutput _ _ _ _ => none
  | .repeatInstr _ _ _ _ => none
  | .bSkip _ _ _ _ => none
  | .bJump _ _ _ _ => none
  | .activateInput _ _ _ _ => none
  | .activateOutput _ _ _ _ => none
  | .activateInputMonitor _ _ _ _ => none
  | .activateOutputMonitor _ _ _ _ => none
  | .illegal7700 _ _ => none
  | .fpAdd _ _ => none
  | .fpSubtract _ _ => none
  | .fpMultiply _ _ => none
  | .unassigned7704 _ _ => none
  | .fpDivide _ _ => none
  | .fpPack _ _ => none
  | .fpUnpack _ _ => none
  | .decimalTest _ _ => none
  | .decimalAdd _ _ => none
  | .decimalSubtract _ _ => none
  | .decimalCompareEqual _ _ => none
  | .decimalComplement _ _ => none
  | .decimalAddCarry _ _ => none
  | .decimalSubtractBorrow _ _ => none
  | .decimalCompareLess _ _ => none
  | .unassigned7720 _ _ => none
  | .enterAq _ _ => none
  | .addAq _ _ => none
  | .compareAqEqual _ _ => none
  | .complementAq _ _ => none
  | .storeAq _ _ => none
  | .subtractAq _ _ => none
  | .compareAqLess _ _ => none
  | .scaleFactorShift _ _ => none
  | .charPackLower _ _ => none
  | .charPackUpper _ _ => none
  | .decimalConvertLower _ _ => none
  | .decimalConvertUpper _ _ => none
  | .charUnpackLower _ _ => none
  | .charUnpackUpper _ _ => none
  | .executeRemote _ _ => none
  | .enterB0Jump _ _ => none
  | .enterB1Jump _ _ => none
  | .enterB2Jump _ _ => none
  | .enterB3Jump _ _ => none
  | .enterB4Jump _ _ => none
  | .enterB5Jump _ _ => none
  | .enterB6Jump _ _ => none
  | .enterB7Jump _ _ => none
  | .unassigned7750 _ _ => none
  | .logicalRightShiftQ _ _ => none
  | .testAndSet _ _ => none
  | .maskedAlphaEqual _ _ => none
  | .executiveReturn _ _ => none
  | .logicalRightShiftA _ _ => none
  | .logicalRightShiftAq _ _ => none
  | .maskedAlphaLess _ _ => none
  | .unassigned7760 _ _ => none
  | .enterIfrRir _ _ => none
  | .loadPlr _ _ => none
  | .unassigned7763 _ _ => none
  | .unassigned7764 _ _ => none
  | .storeIfr _ _ => none
  | .enterRir _ _ => none
  | .unassigned7767 _ _ => none
  | .initiateSyncInterrupt _ _ => none
  | .enterBWorker _ _ => none
  | .storeChannelNumber _ _ => none
  | .enterCsr _ _ => none
  | .unassigned7774 _ _ => none
  | .storeBWorker _ _ => none
  | .unassigned7776 _ _ => none
  | .unassigned7777 _ _ => none

/-- The physical count in B7 of the active set (R431, R432, log 33). -/
def repeatCountLeft (s : State) : Addr := (bSetOf (bView s) s).b7

/-- A step past the top or below zero: modulo 2^m or end-around, a free choice (R433, U16, log 25). -/
def wrapChoice (modulo around : Nat) (s : State) : Addr × State :=
  (BitVec.ofNat 17 (if freeChoice s then modulo else around), spend s)

/-- The stepped `REPEAT_YBAR` (R433), m bits wide. -/
def stepYbar (b : BitVec 3) (s : State) : Addr × State :=
  let m := ybarWidth b s
  let r := (cutTo m s.rep.ybar).toNat
  let up (d : Nat) : Addr × State :=
    if r + d < 2 ^ m then (BitVec.ofNat 17 (r + d), s) else wrapChoice ((r + d) % 2 ^ m) (endAround m (r + d)) s
  match s.rep.j.setWidth 2 with
  | 0#2 => (BitVec.ofNat 17 r, s)
  | 1#2 => up 1
  | 2#2 => if 0 < r then (BitVec.ofNat 17 (r - 1), s) else wrapChoice (2 ^ m - 1) (2 ^ m - 2) s
  | _ => up (bRead b s).toNat

/-- After an execution that took no interrupt: the count and the operand step, a satisfied skip condition and a count of 0 end the
sequence (R439, R436). `p` is P before the execution. -/
def afterRepeated (p : Addr) (b : BitVec 3) (s : State) : State :=
  let v := bView s
  let s1 := bWritePhysical v 7#3 (repeatCountLeft s - 1) s
  let (r, s2) := stepYbar b s1
  let s3 := s2.setRep { s2.rep with ybar := r }
  if s3.pc ≠ p then
    match s3.cfg.repeatSkip with
    | .terminate => s3.setRep { s3.rep with active := false }
    | .ignore =>
      let s4 := s3.setPc p
      if repeatCountLeft s4 = 0 then s4.setRep { s4.rep with active := false } else s4
  else if repeatCountLeft s3 = 0 then s3.setRep { s3.rep with active := false }
  else s3

/-- One execution of the repeated instruction, whose word is known (R439). -/
def repeatOnce (i : Instr) (b : BitVec 3) (y : BitVec 15) (s : State) : Result :=
  let s1 := if s.rep.first then s.setRep { s.rep with ybar := indexSum b y s, first := false } else s
  if repeatCountLeft s1 = 0 then .next (s1.setRep { s1.rep with active := false })
  else
    match exec i (s1.setOverlap []) with
    | .next s2 => if s2.fetch ≠ .program then .next s2 else .next (afterRepeated s1.pc b s2)
    | .fault r => .fault r
    | .refused r => .refused r

/-- The repeated instruction is fetched once; a forbidden one is executed once as an ordinary instruction (R435, R439). -/
def runRepeat (s : State) : Result :=
  match s.rep.word with
  | some w =>
    match repeatFields (decode w) with
    | some (b, y) => repeatOnce (decode w) b y s
    | none => runInstr (decode w) (s.setRep { s.rep with active := false })
  | none =>
    (cpuRead s.pc s).andThen fun w s1 =>
      let (w', s2) := fetchedWord s.pc w s1
      let s3 := s2.setPc (s2.pc + 1)
      match repeatFields (decode w') with
      | some (b, y) => repeatOnce (decode w') b y (s3.setRep { s3.rep with word := some w' })
      | none => runInstr (decode w') (s3.setRep { s3.rep with active := false })

/-! ## One step of the CPU -/

/-- A step that takes no conditional interrupt. -/
def runNext (s : State) : Result := if s.rep.active then runRepeat s else runProgram s

/-- One step of the CPU; `defer` puts off a conditional interrupt that is due (60_exceptions.md R532, D1, log 8). A stopped CPU does
nothing (10_state.md R60, log 49). -/
def cycle (defer : Bool) (s : State) : Result :=
  if !s.run then .next s
  else
    match s.fetch with
    | .fixed n => runFixed n s
    | .remote a => runRemote a s
    | .program =>
      if timeoutDue s then raise .timeout none s
      else
        match dueInterrupt s with
        | some x => if defer then runNext s else .next (enter (.cond x) none (s.setPending (s.pending.erase x)))
        | none => runNext s

/-- One event of the script (log 7). -/
def handle (e : Event) (s : State) : Result :=
  match e with
  | .cpu d => cycle d s
  | other => respond other s

end Sys2Proof.Machine
end

