-- ==== Sys2Proof/Machine/Step.lean ====
section
/-! DEFINITION. The step of the machine: the next event of the script, or a step of the CPU where the script is empty; and the
placing of one instruction where the next step fetches it. -/

namespace Sys2Proof.Machine

open Sys2Proof

def step (s : State) : Host.Outcome State Fault Refusal :=
  match s.inputs with
  | [] => cycle false s
  | e :: rest => handle e (s.setInputs rest)

/-- The state with an instruction's word stored at P, on a running CPU that fetches it next: no script, no interrupt due, no Repeat
sequence under way (log 3). An instruction is one word, so the bits above `nbits` are 0. -/
def State.withFetchWord (s : State) (nbits w : Nat) : State :=
  { s with
    mem := s.mem.set s.pc.toNat (BitVec.ofNat 30 (w % 2 ^ nbits))
    parity := mendPart s.parity s.pc .whole
    run := true
    fetch := .program
    inputs := []
    overlap := []
    pending := []
    lockout := { s.lockout with silTimer := 0 }
    rep := { s.rep with active := false } }

end Sys2Proof.Machine
end

