-- ==== Sys2Proof/Safety.lean ====
section
/-! DEFINITION. The terms the claims use: when an operand can be read or written, what an instruction's address formation leaves,
what stays the same, and the invariants. -/

namespace Sys2Proof.Machine

open Sys2Proof

/-! ## Outcomes -/

/-- The instruction completes, and the next state is as said. -/
def Answers (r : Result) (p : State → Prop) : Prop := ∃ t, r = .next t ∧ p t

/-- P after an instruction that skips where `c` holds (30_encoding.md R160). -/
def pcAfter (s : State) (c : Bool) : Addr := if c then s.pc + 1 else s.pc

/-! ## Operands (30_encoding.md R150 to R155, 20_memory.md R93 to R101) -/

/-- The absolute address of an instruction's storage operand. -/
def opAddr (b : BitVec 3) (y : BitVec 15) (s : State) : OpAddr := (convert b (effective b y s) s).1

/-- The state after an address conversion: the newly loaded IFR is in force (41_transfer.md R241). -/
def afterConvert (s : State) : State := if s.ctl.newIfr = .due then activate s else s

/-- The state after a storage operand's address has been formed and noted in f1. -/
def noteStorage (b : BitVec 3) (y : BitVec 15) (s : State) : State := capture (opAddr b y s).base (afterConvert s)

/-- The state after `ybar` has been formed as data and noted in f1. -/
def noteData (b : BitVec 3) (y : BitVec 15) (s : State) : State := capture (effective b y s) s

/-- The k designators without a storage reference. -/
def immediateK (k : BitVec 3) : Bool := k == 0#3 || k == 4#3 || k == 7#3

/-- Word n of an operand can be read: fitted, parity right, inside the limits where reads are limited. -/
def canRead (o : OpAddr) (n : Nat) (s : State) : Bool :=
  installed s (o.word n) && !wordBad s (o.word n) && (!(o.checked && readProtected s) || inside s (o.word n))

/-- One part of word n of an operand can be written. -/
def canWrite (o : OpAddr) (n : Nat) (p : Part) (s : State) : Bool :=
  installed s (o.word n) && !testReadBad s (o.word n) p && (!(o.checked && writeProtected s) || inside s (o.word n))

/-- The read-class operand can be had. -/
def operandReadable (k b : BitVec 3) (y : BitVec 15) (s : State) : Bool := immediateK k || canRead (opAddr b y s) 0 s

/-- The read-class operand `Y` (Table 4-1). -/
def operandValue (k b : BitVec 3) (y : BitVec 15) (s : State) : Word :=
  let r := effective b y s
  let w := wordAt s ((opAddr b y s).word 0)
  match k with
  | 0#3 => r.setWidth 30
  | 1#3 => (w.extractLsb' 0 15).setWidth 30
  | 2#3 => (w.extractLsb' 15 15).setWidth 30
  | 3#3 => w
  | 4#3 => (r.extractLsb' 0 15).signExtend 30
  | 5#3 => (w.extractLsb' 0 15).signExtend 30
  | 6#3 => (w.extractLsb' 15 15).signExtend 30
  | _ => s.a

/-- The state after a read-class operand has been had. -/
def operandNote (k b : BitVec 3) (y : BitVec 15) (s : State) : State :=
  if k = 0#3 ∨ k = 4#3 then noteData b y s else if k = 7#3 then captureUnused b y s else noteStorage b y s

/-- The state after a jump's operand has been had: f1 holds P (10_state.md R36 item 2). -/
def jumpNote (k : BitVec 3) (s : State) : State :=
  if immediateK k then capture s.pc s else afterConvert (capture s.pc s)

/-- The two-word operand can be read. -/
def doubleReadable (b : BitVec 3) (y : BitVec 15) (s : State) : Bool := canRead (opAddr b y s) 0 s && canRead (opAddr b y s) 1 s

/-- The two-word operand, the word at the lower address most significant (20_memory.md R85). -/
def doubleValue (b : BitVec 3) (y : BitVec 15) (s : State) : DWord :=
  wordAt s ((opAddr b y s).word 0) ++ wordAt s ((opAddr b y s).word 1)

/-- The first n words of an operand can be read. -/
def wordsReadable (b : BitVec 3) (y : BitVec 15) (n : Nat) (s : State) : Bool := (List.range n).all fun i => canRead (opAddr b y s) i s

/-- The first n words of an operand can be written. -/
def wordsWritable (b : BitVec 3) (y : BitVec 15) (n : Nat) (p : Part) (s : State) : Bool :=
  (List.range n).all fun i => canWrite (opAddr b y s) i p s

/-- Word i of an operand. -/
def operandWord (b : BitVec 3) (y : BitVec 15) (i : Nat) (s : State) : Word := wordAt s ((opAddr b y s).word i)

/-! ## What stays the same -/

def SameIndex (s t : State) : Prop := t.bExec = s.bExec ∧ t.bWork = s.bWork

/-- The channel registers, the channels, the clocks' requests, the signals sent and the switches. -/
def SameIo (s t : State) : Prop :=
  t.sel = s.sel ∧ t.chans = s.chans ∧ t.clk = s.clk ∧ t.outputs = s.outputs ∧ t.panel = s.panel

/-- Running, lockout, pending interrupts, Repeat, the source of the next instruction, the script and the installation. -/
def SameSystem (s t : State) : Prop :=
  t.run = s.run ∧ t.lockout = s.lockout ∧ t.pending = s.pending ∧ t.rep = s.rep ∧ t.fetch = s.fetch ∧
    t.entryOpen = s.entryOpen ∧ t.inputs = s.inputs ∧ t.cfg = s.cfg

/-- Every word of storage reads as before, and so do the parity bits. -/
def SameMemory (s t : State) : Prop := (∀ x : Addr, wordAt t x = wordAt s x) ∧ t.parity = s.parity

/-- Every word but those of a list of addresses reads as before. -/
def MemoryKeptBut (l : List Addr) (s t : State) : Prop := ∀ x : Addr, x ∉ l → wordAt t x = wordAt s x

/-- A write of a part of a word writes its upper, or its lower half. -/
def covers (p : Part) (upper : Bool) : Bool :=
  match p with
  | .whole => true
  | .lower => !upper
  | .upper => upper

/-- The parity bits after a write of one part of one word: those of the written halves are right, all others as before
(20_memory.md R84, R125). -/
def ParityStored (a : Addr) (p : Part) (s t : State) : Prop :=
  ∀ (x : Addr) (upper : Bool), halfBad t x upper = (halfBad s x upper && !(decide (x = a) && covers p upper))

/-- The parity bits after a write of the same part of each of several words (20_memory.md R84, R125). -/
def ParityStoredAll (l : List Addr) (p : Part) (s t : State) : Prop :=
  ∀ (x : Addr) (upper : Bool), halfBad t x upper = (halfBad s x upper && !(decide (x ∈ l) && covers p upper))

/-- The addresses of the first n words of an operand. -/
def operandAddrs (b : BitVec 3) (y : BitVec 15) (n : Nat) (s : State) : List Addr := (List.range n).map (opAddr b y s).word

/-- All but A, Q, P, the control registers and the model's own counter of free values. -/
def Kept (s t : State) : Prop := SameIndex s t ∧ SameIo s t ∧ SameSystem s t ∧ SameMemory s t

/-- All but A, Q, P, the control registers, storage and the model's own counter of free values. -/
def KeptButMemory (s t : State) : Prop := SameIndex s t ∧ SameIo s t ∧ SameSystem s t

/-- The control registers but for f1 of the IFR and the activation of a newly loaded IFR. -/
def ControlKept (s t : State) : Prop :=
  t.ctl.ifr.extractLsb' 17 13 = s.ctl.ifr.extractLsb' 17 13 ∧ t.ctl.plrUL = s.ctl.plrUL ∧ t.ctl.plrLL = s.ctl.plrLL ∧
    t.ctl.rirIV = s.ctl.rirIV ∧ t.ctl.rirActive = s.ctl.rirActive ∧ t.ctl.ifrHold = s.ctl.ifrHold ∧
    t.ctl.reinit = s.ctl.reinit ∧ t.ctl.oldIfr = s.ctl.oldIfr ∧
    (s.ctl.newIfr ≠ .due → t.ctl.ifrActive = s.ctl.ifrActive ∧ t.ctl.newIfr = s.ctl.newIfr)

/-! ## Shapes of completion statements -/

/-- A read-class instruction of which only A, Q, P and the note of the operand change: for every operand that can be had it
completes with the given A and Q, and skips as the given condition on the final registers says. -/
def CompletesRead (i : BitVec 3 → BitVec 3 → BitVec 3 → BitVec 15 → Instr) (useK : BitVec 3 → Bool)
    (fa fq : State → Word → Word) (skip : BitVec 3 → Word → State → Bool) : Prop :=
  ∀ j k b y s, useK k = true → operandReadable k b y s = true →
    let v := operandValue k b y s
    Answers (exec (i j k b y) s) fun t =>
      t.a = fa s v ∧ t.q = fq s v ∧ t.pc = pcAfter s (skip j v t) ∧ t.ctl = (operandNote k b y s).ctl ∧ Kept s t

/-- A normal-word shift: for every operand that can be had and whose low six bits are at most 59 it completes, the registers
standing to the count as given, with the normal skip. -/
def CompletesShift (i : BitVec 3 → BitVec 3 → BitVec 3 → BitVec 15 → Instr) (rel : Nat → State → State → Prop) : Prop :=
  ∀ j k b y s, operandReadable k b y s = true →
    let n := (operandValue k b y s).toNat % 64
    n ≤ 59 →
    Answers (exec (i j k b y) s) fun t =>
      rel n s t ∧ t.pc = pcAfter s (skipNormal j t) ∧ t.ctl = (operandNote k b y s).ctl ∧ Kept s t

/-- Where a Replace-class instruction stores (48_sequence.md R434). -/
def replaceDest (b : BitVec 3) (y : BitVec 15) (s : State) : OpAddr := (replaceAddr (opAddr b y s) b (noteStorage b y s)).1

/-- A Replace-class instruction: the result is in A and in the part of the word that k names, the written halves have right parity, and
nothing else of storage has changed. -/
def CompletesReplace (i : BitVec 3 → BitVec 3 → BitVec 3 → BitVec 15 → Instr) (f : State → Word → Word)
    (skip : BitVec 3 → State → Bool) : Prop :=
  ∀ j k b y s, replaceK k = true → canRead (opAddr b y s) 0 s = true →
    canWrite (replaceDest b y s) 0 (partOf k) (noteStorage b y s) = true →
    let r := f s (operandValue k b y s)
    let d := (replaceDest b y s).word 0
    Answers (exec (i j k b y) s) fun t =>
      t.a = r ∧ t.q = s.q ∧ t.pc = pcAfter s (skip j t) ∧ wordAt t d = mergePart (partOf k) (wordAt s d) r ∧
        MemoryKeptBut [d] s t ∧ ParityStored d (partOf k) s t ∧ ControlKept s t ∧ KeptButMemory s t

/-- The k designators with which a store-class instruction writes storage. -/
def storageK (k : BitVec 3) : Bool := k != 0#3 && k != 4#3

/-- A store-class instruction with a storage destination: what is stored, with k = 5, 6 and 7 its ones complement, and the
final A. -/
def CompletesStore (i : BitVec 3 → BitVec 3 → BitVec 3 → BitVec 15 → Instr) (useK : BitVec 3 → Bool) (value fa : State → Word) : Prop :=
  ∀ j k b y s, storageK k = true → useK k = true → canWrite (opAddr b y s) 0 (partOf k) s = true →
    let d := (opAddr b y s).word 0
    let v := if 5 ≤ k.toNat then ~~~(value s) else value s
    Answers (exec (i j k b y) s) fun t =>
      wordAt t d = mergePart (partOf k) (wordAt s d) v ∧ MemoryKeptBut [d] s t ∧ ParityStored d (partOf k) s t ∧ t.a = fa s ∧ t.q = s.q ∧
        t.pc = pcAfter s (skipNormal j t) ∧ t.ctl = (noteStorage b y s).ctl ∧ KeptButMemory s t

/-- A store-class instruction with k = 0 or 4: no storage reference, only A and Q change. -/
def CompletesInRegisters (i : BitVec 3 → BitVec 3 → BitVec 3 → BitVec 15 → Instr) (fa fq : BitVec 3 → State → Word) : Prop :=
  ∀ j k b y s, storageK k = false →
    Answers (exec (i j k b y) s) fun t =>
      t.a = fa k s ∧ t.q = fq k s ∧ t.pc = pcAfter s (skipNormal j t) ∧ ControlKept s t ∧ Kept s t

/-- A 77 word that reads two words and changes only AQ, P and the note of the operand. -/
def CompletesDouble (i : BitVec 3 → BitVec 15 → Instr) (f : DWord → DWord → DWord) (skip : DWord → DWord → Bool) : Prop :=
  ∀ b y s, doubleReadable b y s = true →
    let m := doubleValue b y s
    Answers (exec (i b y) s) fun t =>
      t.a ++ t.q = f (s.a ++ s.q) m ∧ t.pc = pcAfter s (skip (s.a ++ s.q) m) ∧ t.ctl = (noteStorage b y s).ctl ∧ Kept s t

/-- A 77 word that stores the given parts of successive words and changes nothing else but the note of the operand. -/
def CompletesStores (i : BitVec 3 → BitVec 15 → Instr) (n : Nat) (p : Part) (value : State → Nat → Word) : Prop :=
  ∀ b y s, wordsWritable b y n p s = true →
    Answers (exec (i b y) s) fun t =>
      (∀ x < n, wordAt t ((opAddr b y s).word x) = mergePart p (operandWord b y x s) (value s x)) ∧
        MemoryKeptBut (operandAddrs b y n s) s t ∧ ParityStoredAll (operandAddrs b y n s) p s t ∧ t.a = s.a ∧ t.q = s.q ∧ t.pc = s.pc ∧
        t.ctl = (noteStorage b y s).ctl ∧ KeptButMemory s t

/-- Where a jump goes. -/
def jumpDest (k b : BitVec 3) (y : BitVec 15) (s : State) : OpAddr :=
  (convert b (jumpRel k (operandValue k b y s) (jumpNote k s)) (jumpNote k s)).1

/-- A jump may go there (20_memory.md R102). -/
def destAllowed (o : OpAddr) (s : State) : Bool := !(o.checked && readProtected s) || inside s o.base

/-- A taken jump: P and, after a 7761 with bit 29, the resumed Repeat; storage, A, Q and the I/O state stay. -/
def JumpedTo (a : Addr) (before s t : State) : Prop :=
  t.pc = a ∧ t.ctl = (loadPc a (afterConvert before)).ctl ∧ t.rep = (loadPc a (afterConvert before)).rep ∧ t.a = s.a ∧ t.q = s.q ∧
    SameMemory s t ∧ t.pending = s.pending ∧ t.chans = s.chans ∧ t.outputs = s.outputs ∧ t.fetch = s.fetch ∧ t.inputs = s.inputs ∧
    t.panel = s.panel ∧ t.clk = s.clk ∧ t.entryOpen = s.entryOpen ∧ t.cfg = s.cfg

/-- A privileged 77 word or I/O word outside guard mode. -/
def Unguarded (s : State) : Prop := guardOn s = false

/-! ## Interrupts (60_exceptions.md R541) -/

/-- An interrupt has been entered at fixed location n: P, the index registers, the PLR, RIR.IV, the CSR, the channels and the signals
are as before; IFR and RIR are inactive, the IFR is held, conditional interrupts are locked out. Storage, A, Q, the pending requests
and the other channel registers are for each statement to say. -/
def Entered (n : BitVec 15) (s t : State) : Prop :=
  t.fetch = .fixed n ∧ t.entryOpen = true ∧ t.pc = s.pc ∧ SameIndex s t ∧ t.ctl.ifrHold = true ∧ t.ctl.ifrActive = false ∧
    t.ctl.rirActive = false ∧ t.ctl.newIfr = .settled ∧ t.ctl.reinit = false ∧ t.ctl.rirIV = s.ctl.rirIV ∧
    t.ctl.plrUL = s.ctl.plrUL ∧ t.ctl.plrLL = s.ctl.plrLL ∧ t.lockout = { locked := true, bySil := false, silTimer := 0 } ∧
    t.rep.active = false ∧ t.sel.csr = s.sel.csr ∧ t.chans = s.chans ∧ t.clk = s.clk ∧ t.outputs = s.outputs ∧ t.panel = s.panel ∧
    t.run = s.run ∧ t.inputs = s.inputs ∧ t.cfg = s.cfg

/-- The IFR after an entry outside a Repeat sequence: f9 is cleared unless the IFR is held or a Repeat is about to be resumed. -/
def IfrEntered (s t : State) : Prop :=
  (∀ i < 29, t.ctl.ifr.getLsbD i = s.ctl.ifr.getLsbD i) ∧
    t.ctl.ifr.getLsbD 29 = ((s.ctl.ifrHold || s.ctl.reinit) && s.ctl.ifr.getLsbD 29)

/-- An unconditional interrupt: no channel register is set, no channel register in use, no request taken. -/
def EnteredFault (n : BitVec 15) (s t : State) : Prop :=
  Entered n s t ∧ t.sel.iasr = s.sel.iasr ∧ t.sel.pecsr = s.sel.pecsr ∧ t.sel.useIasr = false ∧ t.sel.usePecsr = false ∧
    t.pending = s.pending

/-- A fault has been entered at fixed location n while an instruction was being repeated: P is back at that instruction, the Repeat
sequence is over, and the IFR, unless held, records f9 = 1, the j of the Repeat and the offending address (48_sequence.md R440,
60_exceptions.md R541). A is for each statement to say. -/
def FaultedInRepeat (n : BitVec 15) (offending : Addr) (s t : State) : Prop :=
  t.fetch = .fixed n ∧ t.entryOpen = true ∧ t.pc = s.pc - 1 ∧ t.q = s.q ∧ SameIndex s t ∧ SameMemory s t ∧ t.rep.active = false ∧
    t.ctl = { s.ctl with ifr := t.ctl.ifr, ifrHold := true, ifrActive := false, rirActive := false, newIfr := .settled, reinit := false } ∧
    (s.ctl.ifrHold = true → t.ctl.ifr = s.ctl.ifr) ∧
    (s.ctl.ifrHold = false → t.ctl.ifr.getLsbD 29 = true ∧ t.ctl.ifr.extractLsb' 21 8 = s.ctl.ifr.extractLsb' 21 8 ∧
      t.ctl.ifr.extractLsb' 18 3 = s.rep.j ∧ t.ctl.ifr.getLsbD 17 = s.ctl.ifr.getLsbD 17 ∧ t.ctl.ifr.extractLsb' 0 17 = offending) ∧
    t.lockout = { locked := true, bySil := false, silTimer := 0 } ∧ t.sel = { s.sel with useIasr := false, usePecsr := false } ∧
    t.chans = s.chans ∧ t.clk = s.clk ∧ t.outputs = s.outputs ∧ t.panel = s.panel ∧ t.pending = s.pending ∧ t.run = s.run ∧
    t.inputs = s.inputs ∧ t.cfg = s.cfg

/-- A reference at an address was denied: Program Protection outside a Repeat sequence, f1 holding the given address (60_exceptions.md
R550), or inside one, f1 holding the offending address; storage and Q are as before, and A is as given. -/
def DeniedAt (offending f1 : Addr) (a : Word → Prop) (s : State) (o : Result) : Prop :=
  (s.rep.active = false → Answers o fun t =>
    EnteredFault 0o1#15 s t ∧ IfrEntered (capture f1 s) t ∧ SameMemory s t ∧ a t.a ∧ t.q = s.q) ∧
  (s.rep.active = true → s.rep.word.isSome = true → Answers o fun t => FaultedInRepeat 0o1#15 offending s t ∧ a t.a)

/-- The fixed location of Memory Parity for the bank of an address (20_memory.md R125, 60_exceptions.md R557): by its two high bits in
the continuous mode, that of some bank in the odd-even mode, whose mapping is open (log 29). -/
def ParityLocation (s : State) (a : Addr) (n : BitVec 15) : Prop :=
  let banks := [0o3#15, 0o4#15, 0o23#15, 0o27#15]
  match s.panel.bankMode with
  | .continuous => banks[a.toNat / 2 ^ 15]? = some n
  | .oddEven => n ∈ banks

/-- A CPU reference to the word at an address found wrong parity outside a Repeat sequence: Memory Parity of its bank is entered, with P
the given address or, unless an entrance is open, the one before it (60_exceptions.md R557, U3); `noted` has the f1 that the
instruction has written, and Q is as before. -/
def ParityFaultAt (a p : Addr) (noted s : State) (rest : State → Prop) (o : Result) : Prop :=
  Answers o fun t => ∃ n r, ParityLocation s a n ∧ (r = p ∨ (s.entryOpen = false ∧ r = p - 1)) ∧ EnteredFault n (s.setPc r) t ∧
    IfrEntered noted t ∧ t.q = s.q ∧ rest t

/-- The next step of the CPU may run this word: the one at the fixed location, at the Execute Remote's target, the repeated one, or the
one at P, where the last instruction overwrote it also what it held before (20_memory.md R133). -/
def mayRun (s : State) (w : Word) : Prop :=
  match s.fetch with
  | .fixed n => w = wordAt s (fixedAddr s n)
  | .remote a => w = wordAt s a
  | .program =>
    if s.rep.active = true ∧ s.rep.word.isSome = true then s.rep.word = some w
    else w = wordAt s s.pc ∨ (s.overlap.find? (fun c => c.1 == s.pc)).map Prod.snd = some w

/-! ## Floating point (43_arith_float.md R301, R303) -/

/-- The value of a floating-point number (R301). -/
def fpValue (x : DWord) : ℚ :=
  if x = 0 ∨ x = BitVec.allOnes 60 then 0
  else
    let m := if x.getLsbD 59 then ~~~x else x
    (if x.getLsbD 59 then -1 else 1) * ((m.extractLsb' 0 48).toNat : ℚ) * 2 ^ (((m.extractLsb' 48 11).toNat : ℤ) - 1072)

/-- The 60 bits of a sign, a characteristic and a fraction: `fenc` (R301). -/
def fpBits (neg : Bool) (c f : Nat) : DWord :=
  let m : DWord := BitVec.ofNat 60 (c * 2 ^ 48 + f)
  if neg then ~~~m else m

/-- What an operation with the exact result r leaves (R303): AQ normalized with the sign of r, with the truncated fraction where the
installation truncates or nothing is cut off, or one of the two interrupts. `n` is the state after the operand has been noted. -/
def FpCompletes (o : Result) (r : ℚ) (n s : State) : Prop :=
  (r = 0 → Answers o fun t => t.a ++ t.q = (0 : DWord) ∧ t.pc = s.pc ∧ t.ctl = n.ctl ∧ Kept s t) ∧
    ∀ e : ℤ, (2 : ℚ) ^ (e - 1) ≤ |r| → |r| < 2 ^ e →
      (-1024 ≤ e → e ≤ 1023 → Answers o fun t =>
        let z : DWord := t.a ++ t.q
        (s.cfg.fpRound = .truncate ∨ (⌊|r| * 2 ^ (48 - e)⌋ : ℚ) = |r| * 2 ^ (48 - e) →
          z = fpBits (decide (r < 0)) (e + 1024).toNat ⌊|r| * 2 ^ (48 - e)⌋.toNat) ∧
          z.getLsbD 59 = decide (r < 0) ∧ z.getLsbD 47 ≠ z.getLsbD 59 ∧ t.pc = s.pc ∧ t.ctl = n.ctl ∧ Kept s t) ∧
      (1023 < e → Answers o fun t => EnteredFault 0o11#15 s t ∧ IfrEntered n t ∧ SameMemory s t) ∧
      (e < -1024 → Answers o fun t => EnteredFault 0o10#15 s t ∧ IfrEntered n t ∧ SameMemory s t)

/-! ## Return jumps (47_jump.md R405) -/

/-- Where a return jump stores its return address. -/
def returnDest (k b : BitVec 3) (y : BitVec 15) (s : State) : OpAddr :=
  (convert b (((operandValue k b y s).extractLsb' 0 15).setWidth 17) (jumpNote k s)).1

/-- A return jump may store there and go on after it. -/
def returnAllowed (o : OpAddr) (s : State) : Bool :=
  (!(o.checked && writeProtected s) || inside s o.base) && (!(o.checked && readProtected s) || inside s (o.base + 1)) &&
    installed s o.base && !testReadBad s o.base .lower

/-- P minus RIR, 0 where P is below it (10_state.md R32). -/
def relativePc (s : State) : Nat := s.pc.toNat - s.ctl.rirIV.toNat * 64

/-! ## Privilege (30_encoding.md R172) -/

/-- The privileged words: the I/O codes, and the 77 words of R172's list (octal). -/
def privilegedWord (w : Word) : Bool :=
  let f := w.extractLsb' 24 6
  let g := w.extractLsb' 18 6
  [0o13#6, 0o17#6, 0o62#6, 0o63#6, 0o66#6, 0o67#6, 0o73#6, 0o74#6, 0o75#6, 0o76#6].contains f ||
    (f == 0o77#6 &&
      [0o60#6, 0o61#6, 0o62#6, 0o63#6, 0o64#6, 0o65#6, 0o66#6, 0o67#6, 0o70#6, 0o72#6, 0o73#6, 0o74#6, 0o76#6, 0o77#6].contains g)

/-! ## Invariants -/

/-- The channel of a request. -/
def CondInt.channel : CondInt → Option (Fin 24)
  | .bcwParity c => some c
  | .ioDataParity c => some c
  | .powerLoss => none
  | .externalEsi c => some c
  | .inputMonitorEsi c => some c
  | .outputMonitorEsi c => some c
  | .externalIsi c => some c
  | .inputMonitorIsi c => some c
  | .outputMonitorIsi c => some c
  | .dayClock => none
  | .realTimeClock => none
  | .sync0 => none
  | .sync1 => none

/-- Storage keeps its canonical form and lists fitted words only. -/
def StorageInv (s : State) : Prop := s.mem.wf ∧ ∀ c ∈ s.mem, c.1 < memWords s.cfg

/-- Only fitted channels are active, ask for interrupts, or are named by the address registers in use; no request is pending
twice (10_state.md R56, R57). -/
def ChannelInv (s : State) : Prop :=
  s.pending.Nodup ∧ (∀ x ∈ s.pending, ∀ c, x.channel = some c → fitted s.cfg c = true) ∧
    (∀ c : Fin 24, fitted s.cfg c = false → (chan s c).inActive = false ∧ (chan s c).outActive = false) ∧
    (s.sel.useIasr = true → (channelOf s.cfg s.sel.iasr).isSome = true) ∧
    (s.sel.usePecsr = true → (channelOf s.cfg s.sel.pecsr).isSome = true)

/-- An active or newly loaded IFR is not held; while an interrupt's entrance is open the machine is in the executive state with
the IFR held and conditional interrupts locked out (10_state.md R37, R41, 60_exceptions.md R541, R542). -/
def EntryInv (s : State) : Prop :=
  (s.ctl.ifrActive = true ∨ s.ctl.newIfr ≠ .settled → s.ctl.ifrHold = false) ∧
    (s.entryOpen = true → s.ctl.ifrHold = true ∧ s.lockout.locked = true ∧ s.ctl.ifrActive = false ∧ s.ctl.rirActive = false ∧
      s.ctl.newIfr = .settled)

end Sys2Proof.Machine
end

