-- ==== Sys2Proof/Certificates/Slice0/Obligations.lean ====
section
/-! DEFINITION. The statements for the provers, family by family. Each cites the rules of spec/ it rests on; "can be had", "can be
read" and "can be written" are the conditions of Sys2Proof/Safety.lean. Directly after a 7761, where a statement does not exclude it, the old
configuration that still governs the forming of ybar is that of log 32. -/

open Sys2Proof Sys2Proof.Machine

/-- 10, 11, 20, 21, 26, 27, 30 and 31 complete with the Q or A of their rules, their skip, and their frame. For every j, k, b, y
and every state in which the read-class operand Y can be had (no storage reference, or a fitted word of right parity inside
the limits in force), ENTER_Q, ENTER_A, ADD_A, SUBTRACT_A, ADD_Q, SUBTRACT_Q, ENTER_Y_PLUS_Q and ENTER_Y_MINUS_Q answer a next
state: Q = Y; A = Y; A + Y; A - Y; Q + Y; Q - Y; Y + Q; Y - Q. P skips by the normal j on the final registers, for 26 and 27
by their column, written out here. Every other register of the machine, every word of storage and every parity bit is
unchanged; of the control registers only f1 of the IFR changes (R36, D4; open where ybar is not used, log 30), and a newly
loaded IFR comes into force. (That f1 changes so is the spec's decision D4 and, for k = 7, the model's choice, log 30.)
(41_transfer.md R221, 41_transfer.md R222, 42_arith_integer.md R266, 42_arith_integer.md R267, 42_arith_integer.md R281,
42_arith_integer.md R282, 42_arith_integer.md R279, 42_arith_integer.md R280) -/
def Obligations.TransferAndAddComplete : Prop :=
  (
    let normal := fun (j : BitVec 3) (_ : Word) (t : State) =>
      (j == 1#3) || (j == 2#3 && !t.q.getLsbD 29) || (j == 3#3 && t.q.getLsbD 29) || (j == 4#3 && t.a == 0) ||
        (j == 5#3 && t.a != 0) || (j == 6#3 && !t.a.getLsbD 29) || (j == 7#3 && t.a.getLsbD 29)
    let any := fun (_ : BitVec 3) => true
    CompletesRead .enterQ any (fun s _ => s.a) (fun _ v => v) normal ∧
    CompletesRead .enterA any (fun _ v => v) (fun s _ => s.q) normal ∧
    CompletesRead .addA any (fun s v => onesAdd s.a v) (fun s _ => s.q) normal ∧
    CompletesRead .subtractA any (fun s v => onesSub s.a v) (fun s _ => s.q) normal ∧
    CompletesRead .enterYPlusQ any (fun s v => onesAdd v s.q) (fun s _ => s.q) normal ∧
    CompletesRead .enterYMinusQ any (fun s v => onesSub v s.q) (fun s _ => s.q) normal) ∧
  (
    let column := fun (j : BitVec 3) (_ : Word) (t : State) =>
      (j == 1#3) || (j == 2#3 && !t.a.getLsbD 29) || (j == 3#3 && t.a.getLsbD 29) || (j == 4#3 && t.q == 0) ||
        (j == 5#3 && t.q != 0) || (j == 6#3 && !t.q.getLsbD 29) || (j == 7#3 && t.q.getLsbD 29)
    CompletesRead .addQ (fun _ => true) (fun s _ => s.a) (fun s v => onesAdd s.q v) column ∧
    CompletesRead .subtractQ (fun _ => true) (fun s _ => s.a) (fun s v => onesSub s.q v) column)

/-- 40, 41, 42 and 50 to 53 complete with the A of their rules and their skip. For every operand that can be had (k = 7 excepted
for 50, 52 and 53, where it may not be used), ENTER_LP gives A = Y and Q with the parity skip of the 40/44 column; ADD_LP and
SUBTRACT_LP give A plus or minus (Y and Q); SELECTIVE_SET, SELECTIVE_COMPLEMENT, SELECTIVE_CLEAR and SELECTIVE_SUBSTITUTE give
their bitwise results, with the normal skip. Q is unchanged. Every other register of the machine, every word of storage and
every parity bit is unchanged; of the control registers only f1 of the IFR changes (R36, D4; open where ybar is not used, log
30), and a newly loaded IFR comes into force. (That f1 changes so is the spec's decision D4 and, for k = 7, the model's
choice, log 30.) (45_logical.md R351, 45_logical.md R352, 45_logical.md R353, 45_logical.md R358, 45_logical.md R359,
45_logical.md R360, 45_logical.md R361, 45_logical.md R366) -/
def Obligations.LogicalReadClassCompletes : Prop :=
  let normal := fun j (_ : Word) t => skipNormal j t
  let any := fun (_ : BitVec 3) => true
  let notSeven := fun (k : BitVec 3) => k != 7#3
  let keepQ := fun (s : State) (_ : Word) => s.q
  let ones := fun (w : Word) => ((List.range 30).filter fun i => w.getLsbD i).length
  CompletesRead .enterLp any (fun s v => v &&& s.q) keepQ (fun j _ t =>
    (j == 1#3) || (j == 2#3 && decide (ones t.a % 2 = 0)) || (j == 3#3 && decide (ones t.a % 2 = 1)) || (j == 4#3 && t.a == 0) ||
      (j == 5#3 && t.a != 0) || (j == 6#3 && !t.a.getLsbD 29) || (j == 7#3 && t.a.getLsbD 29)) ∧
  CompletesRead .addLp any (fun s v => onesAdd s.a (v &&& s.q)) keepQ normal ∧
  CompletesRead .subtractLp any (fun s v => onesSub s.a (v &&& s.q)) keepQ normal ∧
  CompletesRead .selectiveSet notSeven (fun s v => s.a ||| v) keepQ normal ∧
  CompletesRead .selectiveComplement any (fun s v => s.a ^^^ v) keepQ normal ∧
  CompletesRead .selectiveClear notSeven (fun s v => s.a &&& ~~~v) keepQ normal ∧
  CompletesRead .selectiveSubstitute notSeven (fun s v => (s.a &&& ~~~s.q) ||| (v &&& s.q)) keepQ normal

/-- 04 and 43 complete, change only P and f1, and skip by the algebraic order and by the masked difference. For every operand that
can be had COMPARE skips by the j column of R382 on the keys of R381 (the two-complement reading of the patterns) and
COMPARE_MASKED by the column of R383 on A - (Y and Q); A and Q are unchanged. Every other register of the machine, every word
of storage and every parity bit is unchanged; of the control registers only f1 of the IFR changes (R36, D4; open where ybar is
not used, log 30), and a newly loaded IFR comes into force. (46_comparison.md R381, 46_comparison.md R382, 46_comparison.md
R383) -/
def Obligations.CompareCompletes : Prop :=
  CompletesRead .compare (fun _ => true) (fun s _ => s.a) (fun s _ => s.q) (fun j v t =>
    let ky := v.toInt
    let ka := t.a.toInt
    let kq := t.q.toInt
    (j == 1#3) || (j == 2#3 && decide (ky ≤ kq)) || (j == 3#3 && decide (kq < ky)) || (j == 4#3 && decide (ka < ky ∧ ky ≤ kq)) ||
      (j == 5#3 && decide (kq < ky ∨ ky ≤ ka)) || (j == 6#3 && decide (ky ≤ ka)) || (j == 7#3 && decide (ka < ky))) ∧
  CompletesRead .compareMasked (fun _ => true) (fun s _ => s.a) (fun s _ => s.q) (fun j v t =>
    let d := onesSub t.a (v &&& t.q)
    (j == 1#3) || (j == 2#3 && !t.q.getLsbD 29) || (j == 3#3 && t.q.getLsbD 29) || (j == 4#3 && d == 0) || (j == 5#3 && d != 0) ||
      (j == 6#3 && !d.getLsbD 29) || (j == 7#3 && d.getLsbD 29))

/-- 22 completes with the signed product in AQ, complemented for k = 7 with a negative Q, and its own skip table. For every
operand that can be had MULTIPLY answers a next state in which AQ, or its complement where the signs of Q and Y differ (and
once more complemented where k = 7 and Q was negative), is the product of the magnitudes of Q and Y; it skips by the 22 column
on the final AQ. The sign of a zero product and the reading of the column are the spec's decision D22. Every other register of
the machine, every word of storage and every parity bit is unchanged; of the control registers only f1 of the IFR changes
(R36, D4; open where ybar is not used, log 30), and a newly loaded IFR comes into force. (42_arith_integer.md R268,
42_arith_integer.md R269) -/
def Obligations.MultiplyCompletes : Prop :=
  ∀ j k b y s, operandReadable k b y s = true →
    let v := operandValue k b y s
    let p : DWord := BitVec.ofNat 60 ((magnitude s.q).toNat * (magnitude v).toNat)
    let signed := if s.q.getLsbD 29 = v.getLsbD 29 then p else ~~~p
    Answers (exec (.multiply j k b y) s) fun t =>
      t.a ++ t.q = (if k = 7#3 ∧ s.q.getLsbD 29 = true then ~~~signed else signed) ∧
        (let fits30 := t.a = (if t.q.getLsbD 29 then 0o7777777777#30 else 0)
         let fits31 := t.a = 0 ∨ t.a = 0o7777777777#30
         t.pc = pcAfter s (decide (j = 1#3 ∨ j = 6#3 ∨ (j = 2#3 ∧ fits30) ∨ (j = 3#3 ∧ ¬ fits30) ∨ (j = 4#3 ∧ fits31) ∨
           (j = 5#3 ∧ ¬ fits31)))) ∧
        t.ctl = (operandNote k b y s).ctl ∧ Kept s t

/-- 23 on a nonzero divisor: quotient in Q and remainder in A by the signs, or Q = 0 of a sign where it does not fit. For k other
than 7, an operand that can be had and a divisor other than +0 and -0, DIVIDE answers a next state. A quotient of magnitudes
below 2^29, not of a zero dividend by a divisor of the other sign: Q and A are quotient and remainder, both complemented where
the signs differ; the skip is on the uncorrected remainder (D23). A quotient of 2^29 or more: Q is +0 or -0 by the signs, j =
2 skips, j = 3 does not, A and the skip for j of 4 to 7 are open (U8). A zero dividend with the other sign: A and Q open (U9).
Every other register of the machine, every word of storage and every parity bit is unchanged; of the control registers only f1
of the IFR changes (R36, D4; open where ybar is not used, log 30), and a newly loaded IFR comes into force.
(42_arith_integer.md R270, 42_arith_integer.md R271, 42_arith_integer.md R276, 42_arith_integer.md R272) -/
def Obligations.DivideCompletes : Prop :=
  (
    ∀ j k b y s, k ≠ 7#3 → operandReadable k b y s = true →
      let v := operandValue k b y s
      let n := (magnitude (s.a ++ s.q : BitVec (30 + 30))).toNat
      let d := (magnitude v).toNat
      let unlike := s.a.getLsbD 29 ≠ v.getLsbD 29
      d ≠ 0 → n / d < 2 ^ 29 → ¬ (n = 0 ∧ unlike) →
      Answers (exec (.divide j k b y) s) fun t =>
        (¬ unlike → t.q.toNat = n / d ∧ t.a.toNat = n % d) ∧
        (unlike → (~~~t.q).toNat = n / d ∧ (~~~t.a).toNat = n % d) ∧
        t.pc = pcAfter s (decide (j = 1#3 ∨ j = 3#3 ∨ j = 6#3 ∨ (j = 4#3 ∧ n % d = 0) ∨ (j = 5#3 ∧ n % d ≠ 0))) ∧
        t.ctl = (operandNote k b y s).ctl ∧ Kept s t) ∧
  (
    ∀ j k b y s, k ≠ 7#3 → operandReadable k b y s = true →
      let v := operandValue k b y s
      let n := (magnitude (s.a ++ s.q : BitVec (30 + 30))).toNat
      let d := (magnitude v).toNat
      let unlike := s.a.getLsbD 29 ≠ v.getLsbD 29
      d ≠ 0 →
      (2 ^ 29 ≤ n / d → Answers (exec (.divide j k b y) s) fun t =>
        t.q = (if unlike then 0o7777777777#30 else 0) ∧
        (j = 1#3 ∨ j = 2#3 → t.pc = s.pc + 1) ∧ (j = 0#3 ∨ j = 3#3 → t.pc = s.pc) ∧
        t.ctl = (operandNote k b y s).ctl ∧ Kept s t) ∧
      (n = 0 ∧ unlike → Answers (exec (.divide j k b y) s) fun t =>
        t.pc = pcAfter s (decide (j = 1#3 ∨ j = 3#3 ∨ j = 4#3 ∨ j = 6#3)) ∧ t.ctl = (operandNote k b y s).ctl ∧ Kept s t))

/-- 23 with a divisor of +0 or -0 completes with the Q, A and sensed remainder of the table of R273. For k other than 7 and a
divisor of +0 or -0 that can be had, DIVIDE answers a next state and raises no interrupt. Positive by +0: Q = -0, A = initial
Q; negative by +0: Q = +0, A = initial Q, sensed complement of Q; positive by -0: Q = +0, A = complement of initial Q, sensed
initial Q; negative by -0: Q = -0, A = complement of initial Q. Division by zero counts as overflow for j = 2 and 3; j = 4 to
7 sense the remainder of the table. Every other register of the machine, every word of storage and every parity bit is
unchanged; of the control registers only f1 of the IFR changes (R36, D4; open where ybar is not used, log 30), and a newly
loaded IFR comes into force. (42_arith_integer.md R273) -/
def Obligations.DivideByZeroCompletes : Prop :=
  ∀ j k b y s, k ≠ 7#3 → operandReadable k b y s = true →
    let v := operandValue k b y s
    v = 0 ∨ v = 0o7777777777#30 →
    let neg := s.a.getLsbD 29
    let minus := v.getLsbD 29
    let sensed : Word := if neg then ~~~s.q else s.q
    Answers (exec (.divide j k b y) s) fun t =>
      t.q = (if neg = minus then 0o7777777777#30 else 0) ∧ t.a = (if minus then ~~~s.q else s.q) ∧
      t.pc = pcAfter s (decide (j = 1#3 ∨ j = 2#3 ∨ (j = 4#3 ∧ sensed = 0) ∨ (j = 5#3 ∧ sensed ≠ 0) ∨
        (j = 6#3 ∧ sensed.getLsbD 29 = false) ∨ (j = 7#3 ∧ sensed.getLsbD 29 = true))) ∧
      t.ctl = (operandNote k b y s).ctl ∧ Kept s t

/-- 01, 02, 03 shift right with sign fill and 05, 06, 07 circularly left, bit by bit, for every count up to 59. For every operand
that can be had whose low six bits n are at most 59: after 01 bit i of Q is bit i + n of the old Q, or its sign where i + n is
past the top; 02 the same of A; 03 the same of the 60-bit AQ; after 05 bit i of Q is bit (i + 30 - n mod 30) mod 30 of the old
Q; 06 the same of A; 07 bit (i + 60 - n mod 60) mod 60 of AQ. The other register keeps its value; the skip is the normal one.
Every other register of the machine, every word of storage and every parity bit is unchanged; of the control registers only f1
of the IFR changes (R36, D4; open where ybar is not used, log 30), and a newly loaded IFR comes into force. (40_shift.md R200,
40_shift.md R211, 40_shift.md R201, 40_shift.md R202, 40_shift.md R203, 40_shift.md R204, 40_shift.md R205, 40_shift.md R206) -/
def Obligations.NormalShiftsComplete : Prop :=
  CompletesShift .rightShiftQ (fun n s t => t.a = s.a ∧
    ∀ i < 30, t.q.getLsbD i = if i + n ≤ 29 then s.q.getLsbD (i + n) else s.q.getLsbD 29) ∧
  CompletesShift .rightShiftA (fun n s t => t.q = s.q ∧
    ∀ i < 30, t.a.getLsbD i = if i + n ≤ 29 then s.a.getLsbD (i + n) else s.a.getLsbD 29) ∧
  CompletesShift .rightShiftAq (fun n s t =>
    ∀ i < 60, (t.a ++ t.q).getLsbD i = if i + n ≤ 59 then (s.a ++ s.q).getLsbD (i + n) else s.a.getLsbD 29) ∧
  CompletesShift .leftShiftQ (fun n s t => t.a = s.a ∧ ∀ i < 30, t.q.getLsbD i = s.q.getLsbD ((i + 30 - n % 30) % 30)) ∧
  CompletesShift .leftShiftA (fun n s t => t.q = s.q ∧ ∀ i < 30, t.a.getLsbD i = s.a.getLsbD ((i + 30 - n % 30) % 30)) ∧
  CompletesShift .leftShiftAq (fun n s t => ∀ i < 60, (t.a ++ t.q).getLsbD i = (s.a ++ s.q).getLsbD ((i + 60 - n % 60) % 60))

/-- 7751, 7755, 7756 shift right with zero fill by ybar; 7730 shifts A around to its first significant bit. For low six bits n of
ybar at most 59, bit i of Q, A or AQ after 7751, 7755 or 7756 is bit i + n of the old register or 0 past its top; P is the
next address (that the count is from ybar is D17). SCALE_FACTOR_SHIFT answers in every state, with a count c of at most 28 in
Q (its whole, D18): A is the old A shifted around to the left by c; at every smaller count the two top bits are equal, and at
c they differ unless c = 28. Every other register of the machine, every word of storage and every parity bit is unchanged; of
the control registers only f1 of the IFR changes (R36, D4; open where ybar is not used, log 30), and a newly loaded IFR comes
into force. (40_shift.md R207, 40_shift.md R208, 40_shift.md R209, 40_shift.md R211, 40_shift.md R210) -/
def Obligations.UnsignedShiftsComplete : Prop :=
  (
    ∀ b y s,
      let n := (effective b y s).toNat % 64
      n ≤ 59 →
      (Answers (exec (.logicalRightShiftQ b y) s) fun t =>
        t.a = s.a ∧ (∀ i < 30, t.q.getLsbD i = s.q.getLsbD (i + n)) ∧ t.pc = s.pc ∧ t.ctl = (noteData b y s).ctl ∧ Kept s t) ∧
      (Answers (exec (.logicalRightShiftA b y) s) fun t =>
        t.q = s.q ∧ (∀ i < 30, t.a.getLsbD i = s.a.getLsbD (i + n)) ∧ t.pc = s.pc ∧ t.ctl = (noteData b y s).ctl ∧ Kept s t) ∧
      (Answers (exec (.logicalRightShiftAq b y) s) fun t =>
        (∀ i < 60, (t.a ++ t.q).getLsbD i = (s.a ++ s.q).getLsbD (i + n)) ∧ t.pc = s.pc ∧ t.ctl = (noteData b y s).ctl ∧ Kept s t)) ∧
  (
    ∀ b y s, Answers (exec (.scaleFactorShift b y) s) fun t =>
      ∃ c ≤ 28, t.q.toNat = c ∧ (∀ i < 30, t.a.getLsbD i = s.a.getLsbD ((i + 30 - c) % 30)) ∧
        (∀ e < c, s.a.getLsbD ((59 - e) % 30) = s.a.getLsbD ((58 - e) % 30)) ∧
        (c = 28 ∨ t.a.getLsbD 29 ≠ t.a.getLsbD 28) ∧ t.pc = s.pc ∧ ControlKept s t ∧ Kept s t)

/-- The thirteen Replace-class instructions: result in A and in the part of the word k names, under Repeat where R434 says. For k
of 1, 2, 3, 5 and 6, an operand that can be read and a destination that can be written, 24, 25, 34 to 37, 44 to 46 and 54 to
57 answer a next state: A is the result; the word at the destination has the result in the half or whole that Table 4-2 names;
every other word reads as before; the parity bits of the written halves are right and all others as before (R84, R125); Q, the
index registers, the channels and the system state are unchanged. The destination is the operand's own address, or under a
Repeat with j of 4 to 7 the displaced one. 44 skips by the parity column of R366, the others by the normal j. Directly after
7761 the store goes to the operand's own, unchecked address: the model's choice (log 58). (30_encoding.md R157, 48_sequence.md
R434, 42_arith_integer.md R277, 42_arith_integer.md R278, 42_arith_integer.md R285, R286, 42_arith_integer.md R287, R288,
45_logical.md R354, 45_logical.md R355, 45_logical.md R356, 45_logical.md R362, R363, 45_logical.md R364, R365, 45_logical.md
R366) -/
def Obligations.ReplaceClassCompletes : Prop :=
  let normal := fun j t => skipNormal j t
  CompletesReplace .replaceAPlusY (fun s v => onesAdd s.a v) normal ∧
  CompletesReplace .replaceAMinusY (fun s v => onesSub s.a v) normal ∧
  CompletesReplace .replaceYPlusQ (fun s v => onesAdd v s.q) normal ∧
  CompletesReplace .replaceYMinusQ (fun s v => onesSub v s.q) normal ∧
  CompletesReplace .replaceYPlus1 (fun _ v => onesAdd v 1) normal ∧
  CompletesReplace .replaceYMinus1 (fun _ v => onesSub v 1) normal ∧
  CompletesReplace .replaceLp (fun s v => v &&& s.q) (fun j t => skipLp j t) ∧
  CompletesReplace .replaceAPlusLp (fun s v => onesAdd s.a (v &&& s.q)) normal ∧
  CompletesReplace .replaceAMinusLp (fun s v => onesSub s.a (v &&& s.q)) normal ∧
  CompletesReplace .replaceSelectiveSet (fun s v => s.a ||| v) normal ∧
  CompletesReplace .replaceSelectiveComplement (fun s v => s.a ^^^ v) normal ∧
  CompletesReplace .replaceSelectiveClear (fun s v => s.a &&& ~~~v) normal ∧
  CompletesReplace .replaceSelectiveSubstitute (fun s v => (s.a &&& ~~~s.q) ||| (v &&& s.q)) normal

/-- 14, 15, 32, 33 and 47: the register, or its complement, in the part k names, or for k = 0 and 4 in Q or A. For k of 1, 2, 3,
5, 6 and (not for 47) 7 and a destination that can be written: the half or whole of the word that k names holds Q, A, A + Q, A
- Q or (A and Q), complemented for k of 5 and above; every other word reads as before; A is the result for 32 and 33 and else
unchanged. With k = 0 14 complements Q, 15 copies A to Q, 32 and 33 put the result in A and Q, 47 in Q; with k = 4 14 copies Q
to A, 15 complements A, 32, 33 and 47 put it in A. All complete, with the normal skip. Every other register of the machine and
every other word of storage is unchanged; the parity bits of the written halves are right and all others as before (R84,
R125); of the control registers only f1 of the IFR changes (R36, D4; open where ybar is not used, log 30), and a newly loaded
IFR comes into force. (30_encoding.md R156, 41_transfer.md R225, 41_transfer.md R226, 42_arith_integer.md R283,
42_arith_integer.md R284, 45_logical.md R357) -/
def Obligations.StoreClassCompletes : Prop :=
  (
    let any := fun (_ : BitVec 3) => true
    CompletesStore .storeQ any (fun s => s.q) (fun s => s.a) ∧
    CompletesStore .storeA any (fun s => s.a) (fun s => s.a) ∧
    CompletesStore .storeAPlusQ any (fun s => onesAdd s.a s.q) (fun s => onesAdd s.a s.q) ∧
    CompletesStore .storeAMinusQ any (fun s => onesSub s.a s.q) (fun s => onesSub s.a s.q) ∧
    CompletesStore .storeLp (fun k => k != 7#3) (fun s => s.a &&& s.q) (fun s => s.a)) ∧
  (
    CompletesInRegisters .storeQ (fun k s => if k = 4#3 then s.q else s.a) (fun k s => if k = 0#3 then ~~~s.q else s.q) ∧
    CompletesInRegisters .storeA (fun k s => if k = 4#3 then ~~~s.a else s.a) (fun k s => if k = 0#3 then s.a else s.q) ∧
    CompletesInRegisters .storeAPlusQ (fun _ s => onesAdd s.a s.q) (fun k s => if k = 0#3 then onesAdd s.a s.q else s.q) ∧
    CompletesInRegisters .storeAMinusQ (fun _ s => onesSub s.a s.q) (fun k s => if k = 0#3 then onesSub s.a s.q else s.q) ∧
    CompletesInRegisters .storeLp (fun k s => if k = 4#3 then s.a &&& s.q else s.a) (fun k s => if k = 0#3 then s.a &&& s.q else s.q))

/-- 16 stores an index register, zero-filled, or for k of 5, 6 and 7 its complement, or copies it to Q or A. With v the value of
B_j at its active width w (0 for j = 0): k = 0 puts v in Q, k = 4 in A; k = 1, 2 and 3 store its low half in a half or v zero-
filled in the word; k = 5 and 6 store the low 15 bits of its w-bit complement; k = 7 stores the complement filled with its top
bit. Every other word, register and flag is as before, and the parity bits of the written halves are right and all others as
before (R84, R125); P is the next address. Directly after 7761 B_j is read in the old set and width: the model's reading (log
57, DEDUCED). (41_transfer.md R227, 41_transfer.md R228, 10_state.md R27) -/
def Obligations.StoreIndexRegisterCompletes : Prop :=
  ∀ j k b y s,
    let v := bRead j s
    let w := bWidth (bView s) j
    let cv := 2 ^ w - 1 - v.toNat
    (k = 0#3 → Answers (exec (.storeB j k b y) s) fun t =>
      t.q.toNat = v.toNat ∧ t.a = s.a ∧ t.pc = s.pc ∧ ControlKept s t ∧ Kept s t) ∧
    (k = 4#3 → Answers (exec (.storeB j k b y) s) fun t =>
      t.a.toNat = v.toNat ∧ t.q = s.q ∧ t.pc = s.pc ∧ ControlKept s t ∧ Kept s t) ∧
    (storageK k = true → canWrite (opAddr b y s) 0 (partOf k) s = true → Answers (exec (.storeB j k b y) s) fun t =>
      let d := (opAddr b y s).word 0
      (k = 1#3 → wordAt t d = upperHalf (wordAt s d) ++ BitVec.ofNat 15 v.toNat) ∧
      (k = 2#3 → wordAt t d = BitVec.ofNat 15 v.toNat ++ lowerHalf (wordAt s d)) ∧
      (k = 3#3 → (wordAt t d).toNat = v.toNat) ∧
      (k = 5#3 → wordAt t d = upperHalf (wordAt s d) ++ BitVec.ofNat 15 cv) ∧
      (k = 6#3 → wordAt t d = BitVec.ofNat 15 cv ++ lowerHalf (wordAt s d)) ∧
      (k = 7#3 → (wordAt t d).toNat = if cv < 2 ^ (w - 1) then cv else cv + (2 ^ 30 - 2 ^ w)) ∧
      MemoryKeptBut [d] s t ∧ ParityStored d (partOf k) s t ∧ t.a = s.a ∧ t.q = s.q ∧ t.pc = s.pc ∧ t.ctl = (noteStorage b y s).ctl ∧ KeptButMemory s t)

/-- 12 enters the low bits of Y into B_j of the active set at its active width; j = 0 does nothing. For j = 0 ENTER_B answers a
next state with nothing changed but f1. For every other j and every operand that can be had it answers a next state in which
B_j of the active set holds Y cut to its active width, every other index register keeps its value, and A, Q, storage and the
system state are unchanged. Directly after 7761 set and width are those of the old or of the new IFR (U20). (41_transfer.md
R223, 10_state.md R27, 70_reset_and_hazards.md R620) -/
def Obligations.EnterIndexRegisterCompletes : Prop :=
  ∀ j k b y s,
    (j = 0#3 → Answers (exec (.enterB j k b y) s) fun t => t.a = s.a ∧ t.q = s.q ∧ t.pc = s.pc ∧ ControlKept s t ∧ Kept s t) ∧
    (j ≠ 0#3 → operandReadable k b y s = true → Answers (exec (.enterB j k b y) s) fun t =>
      (∃ c : BView, (c = bView s ∨ (s.ctl.newIfr = .due ∧ c = bViewNew s)) ∧
        bReadIn c j t = BitVec.ofNat 17 ((operandValue k b y s).toNat % 2 ^ bWidth c j) ∧
        (∀ i, i ≠ j → (bSetOf c t).read i = (bSetOf c s).read i) ∧
        (if c.worker then t.bExec = s.bExec else t.bWork = s.bWork)) ∧
      t.a = s.a ∧ t.q = s.q ∧ t.pc = s.pc ∧ t.ctl = (operandNote k b y (spendHazard s)).ctl ∧ SameIo s t ∧ SameSystem s t ∧ SameMemory s t)

/-- 7721, 7722, 7724 and 7726 complete with the AQ of their rules. For every two-word operand m that can be had, most significant
word at the lower address, ENTER_AQ gives AQ = m, ADD_AQ and SUBTRACT_AQ the 60-bit ones-complement sum and difference;
COMPLEMENT_AQ completes in every state with both registers complemented. P is the next address. Every other register of the
machine, every word of storage and every parity bit is unchanged; of the control registers only f1 of the IFR changes (R36,
D4; open where ybar is not used, log 30), and a newly loaded IFR comes into force. Directly after 7761 no word of the operand
is limit-checked: the model's choice (log 56). (41_transfer.md R230, 42_arith_integer.md R289, 42_arith_integer.md R290,
42_arith_integer.md R291) -/
def Obligations.DoubleWordTransfersComplete : Prop :=
  CompletesDouble .enterAq (fun _ m => m) (fun _ _ => false) ∧
  CompletesDouble .addAq (fun x m => onesAdd x m) (fun _ _ => false) ∧
  CompletesDouble .subtractAq (fun x m => onesSub x m) (fun _ _ => false) ∧
  ∀ b y s, Answers (exec (.complementAq b y) s) fun t =>
    t.a = ~~~s.a ∧ t.q = ~~~s.q ∧ t.pc = s.pc ∧ ControlKept s t ∧ Kept s t

/-- 7723, 7727, 7713, 7717, 7753 and 7757 complete, change no register, and skip by their comparison. For operands that can be
had: 7723 skips iff the 60 bits are equal, 7727 iff AQ is below the operand in the algebraic order; 7713 and 7717, on decimal
digits up to 9, iff sign and magnitude are equal, and iff AQ is below with -0 just below +0 (D29); with a digit above 9 they
complete with the skip open (U13). 7753 skips iff A and the word agree under the mask Q, 7757 iff masked A is below as an
unsigned integer. Every other register of the machine, every word of storage and every parity bit is unchanged; of the control
registers only f1 of the IFR changes (R36, D4; open where ybar is not used, log 30), and a newly loaded IFR comes into force.
Directly after 7761 no word of the operand is limit-checked: the model's choice (log 56). (46_comparison.md R384,
46_comparison.md R385, 46_comparison.md R386, 46_comparison.md R387, 46_comparison.md R388, 46_comparison.md R389) -/
def Obligations.DoubleAndMaskedComparesComplete : Prop :=
  CompletesDouble .compareAqEqual (fun x _ => x) (fun x m => decide (x = m)) ∧
  CompletesDouble .compareAqLess (fun x _ => x) (fun x m => decide (x.toInt < m.toInt)) ∧
  (∀ b y s, doubleReadable b y s = true →
    let x : DWord := s.a ++ s.q
    let m := doubleValue b y s
    let sign := fun (z : DWord) => (z.getLsbD 4 : Bool)
    let key := fun (z : DWord) => if sign z then (decMag z : Int) else -(decMag z : Int) - 1
    (Answers (exec (.decimalCompareEqual b y) s) fun t =>
      (decValid x = true ∧ decValid m = true → t.pc = pcAfter s (decide (decMag x = decMag m ∧ sign x = sign m))) ∧
      t.a = s.a ∧ t.q = s.q ∧ t.ctl = (noteStorage b y s).ctl ∧ Kept s t) ∧
    (Answers (exec (.decimalCompareLess b y) s) fun t =>
      (decValid x = true ∧ decValid m = true → t.pc = pcAfter s (decide (key x < key m))) ∧
      t.a = s.a ∧ t.q = s.q ∧ t.ctl = (noteStorage b y s).ctl ∧ Kept s t)) ∧
  (∀ b y s, canRead (opAddr b y s) 0 s = true →
    let m := operandWord b y 0 s
    (Answers (exec (.maskedAlphaEqual b y) s) fun t =>
      t.pc = pcAfter s (decide (s.a &&& s.q = m &&& s.q)) ∧ t.a = s.a ∧ t.q = s.q ∧ t.ctl = (noteStorage b y s).ctl ∧ Kept s t) ∧
    (Answers (exec (.maskedAlphaLess b y) s) fun t =>
      t.pc = pcAfter s (decide ((s.a &&& s.q).toNat < (m &&& s.q).toNat)) ∧ t.a = s.a ∧ t.q = s.q ∧
        t.ctl = (noteStorage b y s).ctl ∧ Kept s t))

/-- 7725, 7775, 7735 and 7736 store, and 7771, 7731 and 7732 enter, their successive words and nothing else. Where all their words
can be written: STORE_AQ stores A and Q in two, STORE_B_WORKER the seven worker registers zero-filled in seven,
CHAR_UNPACK_LOWER and UPPER the five characters of A, most significant first, zero-extended in the lower or upper halves of
five, the other halves left (D20). Where all can be read: ENTER_B_WORKER puts their low 15 bits in worker B1 to B3, 17 in B4
to B7; CHAR_PACK_LOWER and UPPER put bits 5 to 0, or 20 to 15, of word n in bits 29 - 6n to 24 - 6n of A. All else but P and
f1 is unchanged; the parity bits of the written halves are right and all others as before (R84, R125). Directly after 7761 no
word of the operand is limit-checked: the model's choice (log 56). (41_transfer.md R231, 41_transfer.md R246, 41_transfer.md
R249, 41_transfer.md R250, 41_transfer.md R245, 41_transfer.md R247, 41_transfer.md R248) -/
def Obligations.MultiWordInstructionsComplete : Prop :=
  (
    CompletesStores .storeAq 2 .whole (fun s n => if n = 0 then s.a else s.q) ∧
    CompletesStores .storeBWorker 7 .whole (fun s n => (s.bWork.read (BitVec.ofNat 3 (n + 1))).setWidth 30) ∧
    CompletesStores .charUnpackLower 5 .lower (fun s n => (s.a >>> (24 - 6 * n)) &&& 0o77#30) ∧
    CompletesStores .charUnpackUpper 5 .upper (fun s n => (s.a >>> (24 - 6 * n)) &&& 0o77#30)) ∧
  (
    (∀ b y s, wordsReadable b y 7 s = true → Answers (exec (.enterBWorker b y) s) fun t =>
      (∀ n < 7, (t.bWork.read (BitVec.ofNat 3 (n + 1))).toNat = (operandWord b y n s).toNat % 2 ^ (if n < 3 then 15 else 17)) ∧
        t.bExec = s.bExec ∧ t.a = s.a ∧ t.q = s.q ∧ t.pc = s.pc ∧ t.ctl = (noteStorage b y s).ctl ∧ SameIo s t ∧ SameSystem s t ∧
        SameMemory s t) ∧
    (∀ b y s, wordsReadable b y 5 s = true →
      (Answers (exec (.charPackLower b y) s) fun t =>
        (∀ n < 5, t.a.extractLsb' (24 - 6 * n) 6 = (operandWord b y n s).extractLsb' 0 6) ∧
          t.q = s.q ∧ t.pc = s.pc ∧ t.ctl = (noteStorage b y s).ctl ∧ Kept s t) ∧
      (Answers (exec (.charPackUpper b y) s) fun t =>
        (∀ n < 5, t.a.extractLsb' (24 - 6 * n) 6 = (operandWord b y n s).extractLsb' 15 6) ∧
          t.q = s.q ∧ t.pc = s.pc ∧ t.ctl = (noteStorage b y s).ctl ∧ Kept s t)))

/-- 7733 and 7734 complete with AQ times 10^5 plus the five digits where that fits 34 bits and the digits are formatted. Where the
five words can be read both complete. If every digit (bits 3 to 0, or 18 to 15) is at most 9, the rest of the half-word's
upper bits are 0 and AQ * 100000 + n is at most 2^34 - 1, that is the final AQ, the word at ybar holding the most significant
digit (D28); otherwise AQ is open (U14). P is the next address. Every other register of the machine, every word of storage and
every parity bit is unchanged; of the control registers only f1 of the IFR changes (R36, D4; open where ybar is not used, log
30), and a newly loaded IFR comes into force. Directly after 7761 no word of the operand is limit-checked: the model's choice
(log 56). (44_arith_decimal.md R331, 44_arith_decimal.md R332) -/
def Obligations.DecimalConvertCompletes : Prop :=
  let form := fun (i : BitVec 3 → BitVec 15 → Instr) (lo : Nat) =>
    ∀ b y s, wordsReadable b y 5 s = true →
      let digit := fun n => ((operandWord b y n s).extractLsb' lo 4).toNat
      let clear := fun n => (operandWord b y n s).extractLsb' (lo + 6) 9 = 0
      let r := (s.a ++ s.q).toNat * 100000 + (digit 0 * 10000 + digit 1 * 1000 + digit 2 * 100 + digit 3 * 10 + digit 4)
      Answers (exec (i b y) s) fun t =>
        ((∀ n < 5, digit n ≤ 9 ∧ clear n) ∧ r ≤ 2 ^ 34 - 1 → (t.a ++ t.q).toNat = r) ∧
          t.pc = s.pc ∧ t.ctl = (noteStorage b y s).ctl ∧ Kept s t
  form .decimalConvertLower 0 ∧ form .decimalConvertUpper 15

/-- 7711, 7712, 7715 and 7716 complete with the digits, sign, zones and carry of the common procedure and their whole frame. On
operands that can be had all four complete. Where every digit is at most 9, with the operand's sign reversed for 7712 and 7716
and c the old f5 (7715) or f4 (7716), else 0: like signs give (a + b + c) mod 10^10, the common sign, and carry iff a + b + c
is 10^10 or more; unlike signs form t = b + c plus the tens (7711, 7712) or nines complement (7715, 7716) of a: a carry out of
t leaves t - 10^10 with the operand's sign, none the same complement of t with AQ's sign (D26). For 7711 and 7712 a sum below
10^10 is the algebraic one. The carry is the new f5 (7711, 7715) or f4 (7712, 7716), even while the IFR is held. With a digit
above 9 digits, sign and that flag are open (U13). The zone bits are kept, above such digits too (log 23). No other bit of the
control registers changes but f1 (R36) and the activation of a newly loaded IFR; P is the next address and all else is as
before. Directly after 7761 no word of the operand is limit-checked: the model's choice (log 56). (44_arith_decimal.md R322,
44_arith_decimal.md R323, 44_arith_decimal.md R324, 44_arith_decimal.md R325, 44_arith_decimal.md R326, 44_arith_decimal.md
R328, 44_arith_decimal.md R329, 44_arith_decimal.md R333) -/
def Obligations.DecimalAdditionsComplete : Prop :=
  let value := fun (z : DWord) => if z.getLsbD 4 then (decMag z : Int) else -(decMag z : Int)
  let form := fun (i : BitVec 3 → BitVec 15 → Instr) (subtract multi : Bool) =>
    ∀ b y s, doubleReadable b y s = true →
      let x : DWord := s.a ++ s.q
      let m := doubleValue b y s
      let n := noteStorage b y s
      let flag := if subtract then 23 else 24
      let c := if multi then (s.ctl.ifr.getLsbD flag).toNat else 0
      let plusM := if subtract then !m.getLsbD 4 else m.getLsbD 4
      let base := if multi then 10 ^ 10 - 1 else 10 ^ 10
      let like := decMag x + decMag m + c
      let unlike := base - decMag x + decMag m + c
      Answers (exec (i b y) s) fun t =>
        let z : DWord := t.a ++ t.q
        (decValid x = true → decValid m = true →
          decValid z = true ∧
          (x.getLsbD 4 = plusM → decMag z = like % 10 ^ 10 ∧ z.getLsbD 4 = plusM ∧ t.ctl.ifr.getLsbD flag = decide (10 ^ 10 ≤ like)) ∧
          (x.getLsbD 4 ≠ plusM → 10 ^ 10 ≤ unlike →
            decMag z = unlike - 10 ^ 10 ∧ z.getLsbD 4 = plusM ∧ t.ctl.ifr.getLsbD flag = true) ∧
          (x.getLsbD 4 ≠ plusM → unlike < 10 ^ 10 →
            decMag z = base - unlike ∧ z.getLsbD 4 = x.getLsbD 4 ∧ t.ctl.ifr.getLsbD flag = false) ∧
          (multi = false → (value x + (if subtract then -1 else 1) * value m).natAbs < 10 ^ 10 →
            value z = value x + (if subtract then -1 else 1) * value m)) ∧
        (∀ i < 10, z.getLsbD (6 * i + 5) = x.getLsbD (6 * i + 5) ∧ (i ≠ 0 → z.getLsbD (6 * i + 4) = x.getLsbD (6 * i + 4))) ∧
        t.ctl = { n.ctl with ifr := t.ctl.ifr } ∧ (∀ i < 30, i ≠ flag → t.ctl.ifr.getLsbD i = n.ctl.ifr.getLsbD i) ∧
        t.pc = s.pc ∧ Kept s t
  form .decimalAdd false false ∧ form .decimalSubtract true false ∧ form .decimalAddCarry false true ∧
  form .decimalSubtractBorrow true true

/-- Of the pending requests the one of best rank by Table 2-2 goes first, among equals the one of best channel. For every nonempty
set of pending requests the one chosen is pending, and every other has a worse rank of the thirteen of Table 2-2, written out
here, or the same rank and, where both have a channel, a channel that does not stand before it in 15 to 8, 23 to 16, 7 to 0. A
conditional interrupt that is due is the one so chosen. Which function the I/O logic serves does not depend on the pending
interrupts, nor which interrupt is due on the channels and clocks. (60_exceptions.md R534, 60_exceptions.md R535) -/
def Obligations.RequestOfBestPriorityGoesFirst : Prop :=
  let rank := fun x : CondInt =>
    match x with
    | .bcwParity _ => 1
    | .ioDataParity _ => 2
    | .powerLoss => 3
    | .externalEsi _ => 4
    | .inputMonitorEsi _ => 5
    | .outputMonitorEsi _ => 6
    | .externalIsi _ => 7
    | .inputMonitorIsi _ => 8
    | .outputMonitorIsi _ => 9
    | .dayClock => 10
    | .realTimeClock => 11
    | .sync0 => 12
    | .sync1 => 13
  let order : List (Fin 24) := [15, 14, 13, 12, 11, 10, 9, 8, 23, 22, 21, 20, 19, 18, 17, 16, 7, 6, 5, 4, 3, 2, 1, 0]
  (∀ l : List CondInt, l ≠ [] → ∃ x, bestPending l = some x ∧ x ∈ l ∧ ∀ z ∈ l, rank x < rank z ∨ (rank x = rank z ∧
    ∀ c d, x.channel = some c → z.channel = some d → order.idxOf c ≤ order.idxOf d)) ∧
  (∀ s x, dueInterrupt s = some x → bestPending s.pending = some x) ∧
  (∀ s l, functionOrder.find? (functionUp (s.setPending l)) = functionOrder.find? (functionUp s)) ∧
  (∀ s v w, dueInterrupt ((s.setChans v).setClk w) = dueInterrupt s)

/-- 7714 and 7710 always complete: the nines or tens complement by the parity of ybar, and the selected tests. DECIMAL_COMPLEMENT
completes; on digits up to 9 the digits are again up to 9 and the magnitude becomes 10^10 - 1 - m for an odd ybar and (10^10 -
m) mod 10^10 for an even one; whatever the digits, sign and zones are kept. That they are kept also where a digit is above 9,
for which R321 and U13 leave the result of 7714 open, is the model's choice (log 23). DECIMAL_TEST completes, changes no
register, and skips iff some bit of y from 0 to 10 is 1 whose test holds: designator set, clear, sign plus, zero, sign minus,
sixth to tenth digit nonzero, nonzero. Which designator bit 0 tests is the parameter of D27. Every other register of the
machine, every word of storage and every parity bit is unchanged; of the control registers only f1 of the IFR changes (R36,
D4; open where ybar is not used, log 30), and a newly loaded IFR comes into force. (44_arith_decimal.md R327,
44_arith_decimal.md R330, 44_arith_decimal.md R321, 93_implementation_defined.md U13) -/
def Obligations.DecimalComplementAndTestComplete : Prop :=
  (∀ b y s, Answers (exec (.decimalComplement b y) s) fun t =>
    let x : DWord := s.a ++ s.q
    let z : DWord := t.a ++ t.q
    (decValid x = true → decValid z = true ∧
      decMag z = (if (effective b y s).getLsbD 0 then 10 ^ 10 - 1 - decMag x else (10 ^ 10 - decMag x) % 10 ^ 10)) ∧
    z.getLsbD 4 = x.getLsbD 4 ∧
    (∀ i < 10, z.getLsbD (6 * i + 5) = x.getLsbD (6 * i + 5) ∧ z.getLsbD (6 * i + 4) = x.getLsbD (6 * i + 4)) ∧
    t.pc = s.pc ∧ t.ctl = (noteData b y s).ctl ∧ Kept s t) ∧
  (∀ b y s, Answers (exec (.decimalTest b y) s) fun t =>
    let x : DWord := s.a ++ s.q
    let f5 := s.ctl.ifr.getLsbD 24
    let f4 := s.ctl.ifr.getLsbD 23
    let set := match s.cfg.decOvf with | .f4OrF5 => f4 || f5 | .f5Only => f5 | .f4Only => f4
    t.pc = pcAfter s ((y.getLsbD 0 && set) || (y.getLsbD 1 && !set) || (y.getLsbD 2 && x.getLsbD 4) ||
      (y.getLsbD 3 && decide (decMag x = 0)) || (y.getLsbD 4 && !x.getLsbD 4) ||
      (y.getLsbD 5 && decide (x.extractLsb' 30 4 ≠ 0)) || (y.getLsbD 6 && decide (x.extractLsb' 36 4 ≠ 0)) ||
      (y.getLsbD 7 && decide (x.extractLsb' 42 4 ≠ 0)) || (y.getLsbD 8 && decide (x.extractLsb' 48 4 ≠ 0)) ||
      (y.getLsbD 9 && decide (x.extractLsb' 54 4 ≠ 0)) || (y.getLsbD 10 && decide (decMag x ≠ 0))) ∧
    t.a = s.a ∧ t.q = s.q ∧ t.ctl = (noteData b y s).ctl ∧ Kept s t)

/-- 7701 and 7702 give the exact sum or difference, truncated to 48 bits, or one of the two interrupts. For every pair of operands
that can be had, outside a Repeat sequence, with r the exact rational sum (difference) of the two values: r = 0 leaves AQ all
zeros; with 2^(e-1) <= |r| < 2^e and e in -1024..1023 AQ is sign, characteristic e + 1024 and the 48-bit floor of |r| *
2^(48-e) (where the installation truncates, or the floor cuts nothing off); e above 1023 enters Floating-Point Overflow at 11
octal, e below -1024 Underflow at 10, AQ open (U10). P and storage are as said. Directly after 7761 no word of the operand is
limit-checked: the model's choice (log 56). That an entry clears f9 is the spec's decision D5 (R541), and that it and its
first instruction are two steps the model's choice (log 5). By another rule of rounding an inexact result is a normalized
number with the sign of r, the model's reading; the exponent is tested before rounding (log 22). (43_arith_float.md R303,
43_arith_float.md R304, 43_arith_float.md R305, 60_exceptions.md R541, 91_not_in_source.md N6) -/
def Obligations.FpAddSubtractComplete : Prop :=
  ∀ b y s, s.rep.active = false → doubleReadable b y s = true →
    let x := fpValue (s.a ++ s.q)
    let m := fpValue (doubleValue b y s)
    FpCompletes (exec (.fpAdd b y) s) (x + m) (noteStorage b y s) s ∧
    FpCompletes (exec (.fpSubtract b y) s) (x - m) (noteStorage b y s) s

/-- 7703 and 7705: exact product and truncated quotient of normalized operands; division by zero is an overflow. For every pair of
operands that can be had, outside a Repeat sequence: where both are normalized, 7703 leaves the exact product as R303 forms
it, and 7705, for a nonzero divisor, the exact quotient with its remainder discarded; a divisor of all zeros or all ones
enters Floating-Point Overflow; where an operand is not normalized both complete with AQ open (U11). Normalized is: zero, or
bit 47 of the un-complemented pattern is 1. Directly after 7761 no word of the operand is limit-checked: the model's choice
(log 56). That an entry clears f9 is the spec's decision D5 (R541), and that it and its first instruction are two steps the
model's choice (log 5). By another rule of rounding an inexact result is a normalized number with the sign of r, the model's
reading; the exponent is tested before rounding (log 22). (43_arith_float.md R302, 43_arith_float.md R303, 43_arith_float.md
R306, 43_arith_float.md R307, 60_exceptions.md R541, 91_not_in_source.md N6) -/
def Obligations.FpMultiplyDivideComplete : Prop :=
  ∀ b y s, s.rep.active = false → doubleReadable b y s = true →
    let x : DWord := s.a ++ s.q
    let m := doubleValue b y s
    let zero := fun (z : DWord) => z = 0 ∨ z = BitVec.allOnes 60
    let normalized := fun (z : DWord) => zero z ∨ z.getLsbD 47 ≠ z.getLsbD 59
    let opened := fun (o : Result) => Answers o fun t => t.pc = s.pc ∧ t.ctl = (noteStorage b y s).ctl ∧ Kept s t
    (normalized x ∧ normalized m → FpCompletes (exec (.fpMultiply b y) s) (fpValue x * fpValue m) (noteStorage b y s) s) ∧
    (¬ (normalized x ∧ normalized m) → opened (exec (.fpMultiply b y) s)) ∧
    (zero m → Answers (exec (.fpDivide b y) s) fun t => EnteredFault 0o11#15 s t ∧ IfrEntered (noteStorage b y s) t ∧ SameMemory s t) ∧
    (¬ zero m → normalized x ∧ normalized m →
      FpCompletes (exec (.fpDivide b y) s) (fpValue x / fpValue m) (noteStorage b y s) s) ∧
    (¬ zero m → ¬ (normalized x ∧ normalized m) → opened (exec (.fpDivide b y) s))

/-- 7706 packs and normalizes by the position of the highest bit; 7707 stores the characteristic and extends the sign. 7706: with
C0 the low 11 bits of the word, g the magnitude of AQ and p the place of its highest 1 bit, C = C0 + p - 47; g = 0 gives AQ =
0; C in 0..2047 gives sign, C and the 48 bits of g from its highest bit down; otherwise AQ is open, and no interrupt is raised
(D25, U11). 7707 stores the un-complemented characteristic in the lower half with zeros above it, keeps the upper half (D20)
and replaces bits 58 to 48 of AQ by the sign. Every other register of the machine and every other word of storage is
unchanged; the parity bits of the written halves are right and all others as before (R84, R125); of the control registers only
f1 of the IFR changes (R36, D4; open where ybar is not used, log 30), and a newly loaded IFR comes into force. (7706 stores
nothing and leaves storage and parity as they are.) 7707 and then 7706 on the same word, with no newly loaded IFR, restore a
normalized AQ other than all ones. (43_arith_float.md R308, 43_arith_float.md R309) -/
def Obligations.FpPackUnpackComplete : Prop :=
  (
    (∀ b y s, canRead (opAddr b y s) 0 s = true →
      let x : DWord := s.a ++ s.q
      let g := (if x.getLsbD 59 then ~~~x else x).toNat
      let c0 := ((operandWord b y 0 s).extractLsb' 0 11).toNat
      Answers (exec (.fpPack b y) s) fun t =>
        (g = 0 → t.a ++ t.q = (0 : DWord)) ∧
        (∀ p, 2 ^ p ≤ g → g < 2 ^ (p + 1) → 47 ≤ c0 + p → c0 + p - 47 ≤ 2047 →
          t.a ++ t.q = fpBits (x.getLsbD 59) (c0 + p - 47) (g * 2 ^ 47 / 2 ^ p)) ∧
        t.pc = s.pc ∧ t.ctl = (noteStorage b y s).ctl ∧ Kept s t) ∧
    (∀ b y s, canWrite (opAddr b y s) 0 .lower s = true →
      let x : DWord := s.a ++ s.q
      let neg := x.getLsbD 59
      let c := (x.extractLsb' 48 11).toNat
      let d := (opAddr b y s).word 0
      Answers (exec (.fpUnpack b y) s) fun t =>
        wordAt t d = upperHalf (wordAt s d) ++ BitVec.ofNat 15 (if neg then 2047 - c else c) ∧ MemoryKeptBut [d] s t ∧
        ParityStored d .lower s t ∧
        (∀ i < 60, (t.a ++ t.q).getLsbD i = if 48 ≤ i then neg else x.getLsbD i) ∧
        t.pc = s.pc ∧ t.ctl = (noteStorage b y s).ctl ∧ KeptButMemory s t)) ∧
  (
    ∀ b y s, s.ctl.newIfr = .settled → canWrite (opAddr b y s) 0 .lower s = true →
      let x : DWord := s.a ++ s.q
      x = 0 ∨ (x ≠ BitVec.allOnes 60 ∧ x.getLsbD 47 ≠ x.getLsbD 59) →
      Answers (exec (.fpUnpack b y) s) fun t => Answers (exec (.fpPack b y) t) fun u => u.a ++ u.q = x)

/-- 60 completes: not taken, taken to the converted operand, and with j of 0 and 1 the lockout is released. With j = 0
JUMP_ARITHMETIC releases the lockout and does nothing else. Otherwise, for every operand that can be had: where the j column
of R402 fails on A and Q nothing changes but f1, which takes P; where it holds and the destination may be jumped to, P is the
destination. With j = 1 the lockout, its timer and both channel register flags are cleared, else all four are unchanged. A, Q,
the index registers, storage and RUN are unchanged. (47_jump.md R400, 47_jump.md R401, 47_jump.md R402, 20_memory.md R97,
20_memory.md R102) -/
def Obligations.JumpArithmeticCompletes : Prop :=
  ∀ j k b y s,
    let released := fun t : State => t.lockout = { locked := false, bySil := false, silTimer := 0 } ∧
      t.sel = { s.sel with useIasr := false, usePecsr := false }
    let kept := fun t : State => t.lockout = s.lockout ∧ t.sel = s.sel
    let cond := j = 1#3 ∨ (j = 2#3 ∧ s.q.getLsbD 29 = false) ∨ (j = 3#3 ∧ s.q.getLsbD 29 = true) ∨ (j = 4#3 ∧ s.a = 0) ∨
      (j = 5#3 ∧ s.a ≠ 0) ∨ (j = 6#3 ∧ s.a.getLsbD 29 = false) ∨ (j = 7#3 ∧ s.a.getLsbD 29 = true)
    let rest := fun t : State => SameIndex s t ∧ SameMemory s t ∧ t.a = s.a ∧ t.q = s.q ∧ t.run = s.run ∧ t.pending = s.pending ∧
      t.chans = s.chans ∧ t.outputs = s.outputs ∧ t.fetch = s.fetch
    (j = 0#3 → Answers (exec (.jumpArithmetic j k b y) s) fun t =>
      released t ∧ t.pc = s.pc ∧ t.ctl = (capture s.pc s).ctl ∧ t.rep = s.rep ∧ rest t) ∧
    (j ≠ 0#3 → operandReadable k b y s = true → ¬ cond → Answers (exec (.jumpArithmetic j k b y) s) fun t =>
      kept t ∧ t.pc = s.pc ∧ t.ctl = (jumpNote k s).ctl ∧ t.rep = s.rep ∧ rest t) ∧
    (cond → operandReadable k b y s = true → destAllowed (jumpDest k b y s) (afterConvert (jumpNote k s)) = true →
      Answers (exec (.jumpArithmetic j k b y) s) fun t =>
        JumpedTo (jumpDest k b y s).base (jumpNote k s) s t ∧ rest t ∧ (if j = 1#3 then released t else kept t))

/-- 61 completes: it jumps always, or by jump key 1 to 3, and stops by the stop keys outside guard mode. For every operand that
can be had: with j = 1, 2 or 3 and that jump key clear JUMP_MANUAL changes nothing but f1; otherwise, where the destination
may be jumped to, P is the destination, and RUN is cleared for j = 4, and for j = 5, 6 and 7 where that stop key is set,
unless guard mode is on when the jump is made. A, Q, the index registers, storage, the lockout and the channel registers are
unchanged. (47_jump.md R403, 47_jump.md R404, 10_state.md R51) -/
def Obligations.JumpManualCompletes : Prop :=
  ∀ j k b y s, operandReadable k b y s = true →
    let taken := (j = 1#3 → s.panel.key1 = true) ∧ (j = 2#3 → s.panel.key2 = true) ∧ (j = 3#3 → s.panel.key3 = true)
    let stops := j = 4#3 ∨ (j = 5#3 ∧ s.panel.stopKey5 = true) ∨ (j = 6#3 ∧ s.panel.stopKey6 = true) ∨
      (j = 7#3 ∧ s.panel.stopKey7 = true)
    let rest := fun t : State => SameIndex s t ∧ SameMemory s t ∧ t.a = s.a ∧ t.q = s.q ∧ t.lockout = s.lockout ∧ t.sel = s.sel
    (¬ taken → Answers (exec (.jumpManual j k b y) s) fun t =>
      t.pc = s.pc ∧ t.ctl = (jumpNote k s).ctl ∧ t.a = s.a ∧ t.q = s.q ∧ Kept s t) ∧
    (taken → destAllowed (jumpDest k b y s) (afterConvert (jumpNote k s)) = true →
      Answers (exec (.jumpManual j k b y) s) fun t =>
        JumpedTo (jumpDest k b y s).base (jumpNote k s) s t ∧ rest t ∧
          (stops ∧ guardOn (afterConvert (jumpNote k s)) = false → t.run = false) ∧
          (¬ stops ∨ guardOn (afterConvert (jumpNote k s)) = true → t.run = s.run))

/-- 64 and 65 complete: P minus RIR goes into the lower half at the target, execution goes on behind it. With j = 0
RETURN_JUMP_ARITHMETIC sets the lockout, marked as set by SIL if it was clear, and does nothing else. Otherwise, for an
operand that can be had: where the condition holds and the target word may be written and jumped behind, 64 and 65 put the low
15 bits of P minus RIR (0 where P is below it) in its lower half, keep its upper half and every other word, and P is the
address after it (the parity bits of the written halves are right and all others as before (R84, R125)); where it fails
nothing changes but f1. 64 with j = 1 also sets the lockout; 65 stops as 61 does. Directly after 7761 neither the address
stored to nor the one after it is limit-checked: the model's choice (log 56). (47_jump.md R405, 47_jump.md R406, 47_jump.md
R404, 10_state.md R32, 20_memory.md R101) -/
def Obligations.ReturnJumpsComplete : Prop :=
  ∀ j k b y s,
    let locks := fun t : State => t.lockout.locked = true ∧ (s.lockout.locked = true → t.lockout = s.lockout) ∧
      (s.lockout.locked = false → t.lockout.bySil = true ∧ t.lockout.silTimer = 0)
    let cond := j = 1#3 ∨ (j = 2#3 ∧ s.q.getLsbD 29 = false) ∨ (j = 3#3 ∧ s.q.getLsbD 29 = true) ∨ (j = 4#3 ∧ s.a = 0) ∨
      (j = 5#3 ∧ s.a ≠ 0) ∨ (j = 6#3 ∧ s.a.getLsbD 29 = false) ∨ (j = 7#3 ∧ s.a.getLsbD 29 = true)
    let keys := (j = 1#3 → s.panel.key1 = true) ∧ (j = 2#3 → s.panel.key2 = true) ∧ (j = 3#3 → s.panel.key3 = true)
    let stops := j = 4#3 ∨ (j = 5#3 ∧ s.panel.stopKey5 = true) ∨ (j = 6#3 ∧ s.panel.stopKey6 = true) ∨
      (j = 7#3 ∧ s.panel.stopKey7 = true)
    let rest := fun t : State => SameIndex s t ∧ SameIo s t ∧ t.a = s.a ∧ t.q = s.q ∧ t.pending = s.pending ∧ t.fetch = s.fetch
    let n := jumpNote k s
    let d := (returnDest k b y s).base
    let stored := fun t : State => t.pc = d + 1 ∧ t.ctl = (loadPc (d + 1) (afterConvert n)).ctl ∧
      wordAt t d = upperHalf (wordAt s d) ++ BitVec.ofNat 15 (relativePc s) ∧ MemoryKeptBut [d] s t ∧ ParityStored d .lower s t ∧
      t.rep = (loadPc (d + 1) (afterConvert n)).rep
    (j = 0#3 → Answers (exec (.returnJumpArithmetic j k b y) s) fun t =>
      locks t ∧ t.pc = s.pc ∧ t.ctl = (capture s.pc s).ctl ∧ t.rep = s.rep ∧ t.run = s.run ∧ SameMemory s t ∧ rest t) ∧
    (operandReadable k b y s = true →
      (j ≠ 0#3 → ¬ cond → Answers (exec (.returnJumpArithmetic j k b y) s) fun t =>
        t.lockout = s.lockout ∧ t.pc = s.pc ∧ t.ctl = n.ctl ∧ t.rep = s.rep ∧ t.run = s.run ∧ SameMemory s t ∧ rest t) ∧
      (¬ keys → Answers (exec (.returnJumpManual j k b y) s) fun t =>
        t.lockout = s.lockout ∧ t.pc = s.pc ∧ t.ctl = n.ctl ∧ t.rep = s.rep ∧ t.run = s.run ∧ SameMemory s t ∧ rest t) ∧
      (returnAllowed (returnDest k b y s) (afterConvert n) = true →
        (cond → Answers (exec (.returnJumpArithmetic j k b y) s) fun t =>
          stored t ∧ t.run = s.run ∧ rest t ∧ (if j = 1#3 then locks t else t.lockout = s.lockout)) ∧
        (keys → Answers (exec (.returnJumpManual j k b y) s) fun t =>
          stored t ∧ t.lockout = s.lockout ∧ rest t ∧
            (stops ∧ guardOn (afterConvert n) = false → t.run = false) ∧
            (¬ stops ∨ guardOn (afterConvert n) = true → t.run = s.run))))

/-- 7740 to 7747 complete: P minus RIR enters all physical bits of B_g, and P is the target formed before. For each of the eight
instructions and every state in which the target may be jumped to, the instruction answers a next state with P at the target
formed from the original B_b; for g of 1 to 3 B_g of the active set is the low 15 bits, for g of 4 to 7 all 17 bits, of P
minus RIR; for g = 0 no index register changes. Every other index register, A, Q, storage and the I/O state are unchanged.
(47_jump.md R415, 47_jump.md R416, 10_state.md R32) -/
def Obligations.EnterBJumpsComplete : Prop :=
  ∀ g : BitVec 3, ∀ i : BitVec 3 → BitVec 15 → Instr,
    (g, i) ∈ [(0#3, Instr.enterB0Jump), (1#3, .enterB1Jump), (2#3, .enterB2Jump), (3#3, .enterB3Jump), (4#3, .enterB4Jump),
      (5#3, .enterB5Jump), (6#3, .enterB6Jump), (7#3, .enterB7Jump)] →
    ∀ b y s,
      let n := capture s.pc s
      let d := (convert b (effective b y s) n).1
      destAllowed d (afterConvert n) = true →
      Answers (exec (i b y) s) fun t =>
        JumpedTo d.base n s t ∧
        ((bSetOf (bView s) t).read g).toNat = (if g = 0#3 then 0 else relativePc s % 2 ^ (if g.toNat < 4 then 15 else 17)) ∧
        (∀ h, h ≠ g → (bSetOf (bView s) t).read h = (bSetOf (bView s) s).read h) ∧
        (if (bView s).worker then t.bExec = s.bExec else t.bWork = s.bWork) ∧
        t.lockout = s.lockout ∧ t.sel = s.sel ∧ t.run = s.run

/-- 7737 completes with P as it is, and the next step runs the word at its target; 7737 and 70 are stuck there. Where the target
may be jumped to, EXECUTE_REMOTE answers a next state that differs only in f1, in where the next instruction comes from (the
model's two steps, log 6) and, directly after 7761, in the newly loaded IFR being in force, so that the target runs under it:
the model's choice (R241, log 60). On a running CPU with no script that is to run the target word, with the word in installed
storage and right parity, the step runs the decoded word with P left as it is, unless it is 7737 or 70, where it stops (U15).
(47_jump.md R412, 41_transfer.md R241) -/
def Obligations.ExecuteRemoteCompletes : Prop :=
  (∀ b y s,
    let n := capture s.pc s
    let d := (convert b (effective b y s) n).1
    destAllowed d (afterConvert n) = true →
    Answers (exec (.executeRemote b y) s) fun t =>
      t.fetch = .remote d.base ∧ t.pc = s.pc ∧ t.a = s.a ∧ t.q = s.q ∧ t.ctl = (afterConvert n).ctl ∧ SameIndex s t ∧ SameIo s t ∧
        SameMemory s t ∧ t.run = s.run ∧ t.lockout = s.lockout ∧ t.pending = s.pending ∧ t.rep = s.rep ∧
        t.entryOpen = s.entryOpen ∧ t.inputs = s.inputs ∧ t.cfg = s.cfg) ∧
  (∀ (a : Addr) (s : State), s.inputs = [] → s.run = true → s.fetch = .remote a → installed s a = true → wordBad s a = false →
    let i := decode (wordAt s a)
    ((∃ b y, i = .executeRemote b y) ∨ (∃ j k b y, i = .repeatInstr j k b y) → step s = .fault .remoteTargetNotAllowed) ∧
    (¬ ((∃ b y, i = .executeRemote b y) ∨ (∃ j k b y, i = .repeatInstr j k b y)) →
      (∀ u, exec i ((s.setFetch .program).setOverlap []) = .next u → step s = finish s.ctl.reinit u) ∧
      (∀ r, exec i ((s.setFetch .program).setOverlap []) = .fault r → step s = .fault r) ∧
      (∀ r, exec i ((s.setFetch .program).setOverlap []) = .refused r → step s = .refused r)))

/-- 62 and 63 complete outside guard mode: a jump where the selected channel's input or output buffer is active. Outside guard
mode, with a j designator of 0, a fitted channel in use and an operand that can be had (k = 0: ybar; 1 and 3: the lower half
of the word; 2: the upper half): where the channel is active and the destination may be jumped to, P is the destination; where
it is not active nothing changes but f1. A, Q, the index registers, storage and the channels are unchanged. (49_io.md R463,
49_io.md R464) -/
def Obligations.ChannelJumpsComplete : Prop :=
  ∀ kh b y s c, Unguarded s → channelOf s.cfg (chanNow s) = some c → (kh = 0#2 ∨ canRead (opAddr b y s) 0 s = true) →
    let n := if kh = 0#2 then capture s.pc s else afterConvert (capture s.pc s)
    let w := operandWord b y 0 s
    let target : Addr := if kh = 0#2 then effective b y s else
      if kh = 2#2 then (w.extractLsb' 15 15).setWidth 17 else (w.extractLsb' 0 15).setWidth 17
    let d := (convert b target n).1
    let rest := fun t : State => SameIndex s t ∧ SameIo s t ∧ t.run = s.run ∧ t.lockout = s.lockout
    let form := fun (i : Instr) (active : Bool) =>
      (active = false → Answers (exec i s) fun t =>
        t.pc = s.pc ∧ t.ctl = n.ctl ∧ t.a = s.a ∧ t.q = s.q ∧ Kept s t) ∧
      (active = true → destAllowed d (afterConvert n) = true → Answers (exec i s) fun t => JumpedTo d.base n s t ∧ rest t)
    form (.jumpActiveInput 0#4 kh b y) (s.chans[c]).inActive ∧ form (.jumpActiveOutput 0#4 kh b y) (s.chans[c]).outActive

/-- 71 and 72 complete: compare, clear and skip or count up; count down and jump, at the active width of B_j. For every operand
that can be had, with c the active view of the index registers (directly after 7761 the old or the new one, U20), w the width
of B_j and v its value: 71 with j = 0 skips iff Y = 0; otherwise where Y equals v as R443 says for k it clears B_j and skips,
else B_j is v + 1 modulo 2^w (D37). 72 with j = 0 or v = 0 does nothing but f1, whatever the destination; else, where the
destination may be jumped to, B_j is v - 1 and P the destination. Every other index register, A, Q and storage are unchanged.
(48_sequence.md R442, 48_sequence.md R443, 48_sequence.md R444, 70_reset_and_hazards.md R620) -/
def Obligations.IndexSkipAndJumpComplete : Prop :=
  ∀ j k b y s,
    let yv := operandValue k b y s
    let views := fun c : BView => c = bView s ∨ (s.ctl.newIfr = .due ∧ c = bViewNew s)
    let others := fun (c : BView) (t : State) => (∀ h, h ≠ j → (bSetOf c t).read h = (bSetOf c s).read h) ∧
      (if c.worker then t.bExec = s.bExec else t.bWork = s.bWork)
    let rest := fun t : State => SameIo s t ∧ SameMemory s t ∧ t.a = s.a ∧ t.q = s.q ∧ t.run = s.run ∧ t.lockout = s.lockout
    let still := fun t : State => t.a = s.a ∧ t.q = s.q ∧ SameIo s t ∧ SameSystem s t ∧ SameMemory s t
    let equal := fun c : BView =>
      let w := bWidth c j
      let v := (bReadIn c j s).toNat
      if k = 1#3 ∨ k = 2#3 then yv.toNat % 2 ^ 15 = v
      else if k = 4#3 ∨ k = 5#3 ∨ k = 6#3 then yv = (BitVec.ofNat 15 v).signExtend 30
      else yv.toNat % 2 ^ w = v
    (j = 0#3 → operandReadable k b y s = true → Answers (exec (.bSkip j k b y) s) fun t =>
      t.pc = pcAfter s (decide (yv = 0)) ∧ SameIndex s t ∧ t.ctl = (operandNote k b y (spendHazard s)).ctl ∧ still t) ∧
    (j ≠ 0#3 → operandReadable k b y s = true → Answers (exec (.bSkip j k b y) s) fun t => ∃ c, views c ∧
      (equal c → bReadIn c j t = 0 ∧ t.pc = s.pc + 1) ∧
      (¬ equal c → (bReadIn c j t).toNat = ((bReadIn c j s).toNat + 1) % 2 ^ bWidth c j ∧ t.pc = s.pc) ∧
      others c t ∧ t.ctl = (operandNote k b y (spendHazard s)).ctl ∧ still t) ∧
    (j = 0#3 → Answers (exec (.bJump j k b y) s) fun t =>
      t.pc = s.pc ∧ SameIndex s t ∧ t.ctl = (capture s.pc s).ctl ∧ still t) ∧
    (j ≠ 0#3 → operandReadable k b y s = true →
      ((∃ c, views c ∧ bReadIn c j s ≠ 0) → destAllowed (jumpDest k b y s) (afterConvert (jumpNote k s)) = true) →
      Answers (exec (.bJump j k b y) s) fun t => ∃ c, views c ∧
        (bReadIn c j s = 0 → t.pc = s.pc ∧ SameIndex s t ∧ t.ctl = (jumpNote k s).ctl ∧ still t) ∧
        (bReadIn c j s ≠ 0 → JumpedTo (jumpDest k b y s).base (jumpNote k s) s t ∧
          (bReadIn c j t).toNat = (bReadIn c j s).toNat - 1 ∧ others c t ∧ rest t))

/-- 70 completes: the count enters all of B7; 0 skips the next instruction, any other count starts a sequence. For every operand
that can be had, REPEAT answers a next state in which B7 of the active set (directly after 7761 of the old or the new set,
U20) holds the count: the low 17 bits of Y for k of 0, 3 and 7, else its low 15 bits (D34). A count of 0 skips the next
instruction and starts nothing; any other starts a sequence with the j of the instruction and its first execution to come.
Every other index register, A, Q, storage and the I/O state are unchanged. (48_sequence.md R431, 48_sequence.md R432,
70_reset_and_hazards.md R620) -/
def Obligations.RepeatCompletes : Prop :=
  ∀ j k b y s, operandReadable k b y s = true →
    let n := (operandValue k b y s).toNat % 2 ^ (if k = 0#3 ∨ k = 3#3 ∨ k = 7#3 then 17 else 15)
    Answers (exec (.repeatInstr j k b y) s) fun t =>
      (∃ c : BView, (c = bView s ∨ (s.ctl.newIfr = .due ∧ c = bViewNew s)) ∧ ((bSetOf c t).read 7#3).toNat = n ∧
        (∀ h, h ≠ 7#3 → (bSetOf c t).read h = (bSetOf c s).read h) ∧
        (if c.worker then t.bExec = s.bExec else t.bWork = s.bWork)) ∧
      (n = 0 → t.pc = s.pc + 1 ∧ t.rep = s.rep) ∧
      (n ≠ 0 → t.pc = s.pc ∧ t.rep.active = true ∧ t.rep.j = j ∧ t.rep.first = true ∧ t.rep.word = none) ∧
      t.a = s.a ∧ t.q = s.q ∧ t.ctl = (operandNote k b y (spendHazard s)).ctl ∧ SameIo s t ∧ SameMemory s t ∧ t.run = s.run ∧
      t.lockout = s.lockout ∧ t.pending = s.pending ∧ t.fetch = s.fetch

/-- 7752 sets the lower half to ones where bit 14 is 0, and enters Test and Set where it is 1. For every word that can be read:
where its bit 14 is 0 and the lower half can be written, TEST_AND_SET answers a next state in which the lower half is all
ones, the upper half and every other word as before, A, Q and P unchanged (the parity bits of the written halves are right and
all others as before (R84, R125)); where bit 14 is 1 it enters the interrupt at 30 octal plus the installation's vector, with
storage, A, Q and P unchanged and f1 the address of the word. The denied reference is another statement's. Directly after 7761
the write is unchecked as the read is: the model's choice (log 58). That an entry clears f9 is the spec's decision D5 (R541),
and that it and its first instruction are two steps the model's choice (log 5). (48_sequence.md R445, 60_exceptions.md R541) -/
def Obligations.TestAndSetCompletes : Prop :=
  ∀ b y s, canRead (opAddr b y s) 0 s = true →
    let d := (opAddr b y s).word 0
    ((wordAt s d).getLsbD 14 = false → canWrite (opAddr b y s) 0 .lower s = true →
      Answers (exec (.testAndSet b y) s) fun t =>
        wordAt t d = upperHalf (wordAt s d) ++ 0o77777#15 ∧ MemoryKeptBut [d] s t ∧ ParityStored d .lower s t ∧ t.a = s.a ∧ t.q = s.q ∧ t.pc = s.pc ∧
          t.ctl = (noteStorage b y s).ctl ∧ KeptButMemory s t) ∧
    ((wordAt s d).getLsbD 14 = true → s.rep.active = false → Answers (exec (.testAndSet b y) s) fun t =>
      EnteredFault (0o30#15 + s.cfg.tasVector.setWidth 15) s t ∧ IfrEntered (noteStorage b y s) t ∧ SameMemory s t ∧ t.a = s.a ∧ t.q = s.q)

/-- 7754, 00 and 7700 enter their interrupts in every mode with everything else kept. In every state outside a Repeat sequence
EXECUTIVE_RETURN enters fixed location 7 with f1 holding ybar (where the hardware may write it), and 00 and 7700, whatever
their other bits, enter fixed location 0 with f1 as it was. A, Q, P, the index registers, PLR, RIR.IV, storage, channels and
pending requests are unchanged; no storage reference is made. That f9 is cleared is the spec's decision D5, that f1 is as it
was its derived step order (R190, R551), and that entry and first instruction are two steps the model's choice (log 5).
(48_sequence.md R446, 30_encoding.md R170, 30_encoding.md R190, 60_exceptions.md R541, 60_exceptions.md R551, 60_exceptions.md
R553) -/
def Obligations.InterruptingInstructionsEnter : Prop :=
  ∀ s, s.rep.active = false →
    let same := fun t : State => SameMemory s t ∧ t.a = s.a ∧ t.q = s.q
    (∀ b y, Answers (exec (.executiveReturn b y) s) fun t => EnteredFault 0o7#15 s t ∧ IfrEntered (noteData b y s) t ∧ same t ∧
      (f1Inhibited s = false → t.ctl.ifr.extractLsb' 0 17 = effective b y s)) ∧
    (∀ j k b y, Answers (exec (.illegal00 j k b y) s) fun t => EnteredFault 0#15 s t ∧ IfrEntered s t ∧ same t) ∧
    (∀ b y, Answers (exec (.illegal7700 b y) s) fun t => EnteredFault 0#15 s t ∧ IfrEntered s t ∧ same t)

/-- The ten unassigned 77 codes only advance P: three in every mode, seven outside guard mode. 7704, 7720 and 7750 in every state,
and 7760, 7763, 7764, 7767, 7774, 7776 and 7777 outside guard mode, answer a next state in which P is the next address and
nothing changes but f1 of the IFR (as for any non-jump instruction; which of the two values R36 names is left open, log 30)
and the activation of a newly loaded IFR. (30_encoding.md R171, 30_encoding.md R172) -/
def Obligations.UnassignedCodesComplete : Prop :=
  let plain := fun (i : BitVec 3 → BitVec 15 → Instr) (s : State) => ∀ b y, Answers (exec (i b y) s) fun t =>
    t.a = s.a ∧ t.q = s.q ∧ t.pc = s.pc ∧ ControlKept s t ∧ Kept s t
  ∀ s, (plain .unassigned7704 s ∧ plain .unassigned7720 s ∧ plain .unassigned7750 s) ∧
    (Unguarded s → plain .unassigned7760 s ∧ plain .unassigned7763 s ∧ plain .unassigned7764 s ∧ plain .unassigned7767 s ∧
      plain .unassigned7774 s ∧ plain .unassigned7776 s ∧ plain .unassigned7777 s)

/-- 13, 17, 7770, 7772 and 7773 complete outside guard mode, and EI rising is one External request. Outside guard mode. With a j
designator of 0: 13 with k = 3 sends the word at the operand address with External Function on the channel in use; with k = 0
it signals the console audio by bits 2 and 3 of ybar; with k = 1 and 2 it does nothing. 17 with k = 3 stores the input lines
of channel IASR, whatever channel is in use, and acknowledges; with other k it does nothing. 7773 puts the low five bits of
the word in CSR; 7772 stores the number of IASR, or else PECSR, where that register is in use and 37 octal otherwise, with
zeros above it (D38); 7770 sends sync 0 where bit 10 of ybar (bit 0, by the parameter of D39) is 1 and sync 1 where bit 1 is,
each only where that line is wired. Nothing else changes but f1; for 17 and 7772 the parity bits of the written halves are
right and all others as before (R84, R125). EI of a fitted channel, where it was down, rises with one External request of the
channel's mode and leaves all else, IASR among it (D6); EI of another does nothing. The model's choices: with both bits of 13
set enable is signalled before disable (log 39), the acknowledge of 17 clears the channel's EI (log 36), which line a single
one is (log 47), and EI as an event of the script (log 7). (49_io.md R461, 49_io.md R462, 49_io.md R467, 49_io.md R468,
49_io.md R469, 10_state.md R49, 49_io.md R488) -/
def Obligations.ChannelWordsAndSignalsComplete : Prop :=
  (
    ∀ b y s, Unguarded s →
      (∀ c, channelOf s.cfg (chanNow s) = some c → canRead (opAddr b y s) 0 s = true →
        Answers (exec (.sendExternalFunction 0#4 3#2 b y) s) fun t =>
          t.outputs = .externalFunction c (operandWord b y 0 s) :: s.outputs ∧ t.chans = s.chans ∧ t.sel = s.sel ∧ t.a = s.a ∧
            t.q = s.q ∧ t.pc = s.pc ∧ t.ctl = (noteStorage b y s).ctl ∧ SameIndex s t ∧ SameSystem s t ∧ SameMemory s t) ∧
      (Answers (exec (.sendExternalFunction 0#4 0#2 b y) s) fun t =>
        t.outputs = (if (effective b y s).getLsbD 3 then [Signal.audioDisable] else []) ++
          (if (effective b y s).getLsbD 2 then [Signal.audioEnable] else []) ++ s.outputs ∧ t.chans = s.chans ∧ t.sel = s.sel ∧
          t.a = s.a ∧ t.q = s.q ∧ t.pc = s.pc ∧ t.ctl = (noteData b y s).ctl ∧ SameIndex s t ∧ SameSystem s t ∧ SameMemory s t) ∧
      (∀ kh, kh = 1#2 ∨ kh = 2#2 → Answers (exec (.sendExternalFunction 0#4 kh b y) s) fun t =>
        t.a = s.a ∧ t.q = s.q ∧ t.pc = s.pc ∧ ControlKept s t ∧ Kept s t) ∧
      (∀ c, channelOf s.cfg s.sel.iasr = some c → canWrite (opAddr b y s) 0 .whole s = true →
        let d := (opAddr b y s).word 0
        Answers (exec (.storeChannel 0#4 3#2 b y) s) fun t =>
          wordAt t d = (s.chans[c]).inLines ∧ MemoryKeptBut [d] s t ∧ ParityStored d .whole s t ∧ t.outputs = .inputAck c :: s.outputs ∧
            t.chans[c] = { s.chans[c] with ei := false } ∧ (∀ e, e ≠ c → t.chans[e] = s.chans[e]) ∧ t.sel = s.sel ∧ t.a = s.a ∧
            t.q = s.q ∧ t.pc = s.pc ∧ t.ctl = (noteStorage b y s).ctl ∧ SameIndex s t ∧ SameSystem s t) ∧
      (∀ kh, kh ≠ 3#2 → Answers (exec (.storeChannel 0#4 kh b y) s) fun t =>
        t.a = s.a ∧ t.q = s.q ∧ t.pc = s.pc ∧ ControlKept s t ∧ Kept s t)) ∧
  (
    ∀ b y s, Unguarded s →
      (canRead (opAddr b y s) 0 s = true → Answers (exec (.enterCsr b y) s) fun t =>
        t.sel = { s.sel with csr := (operandWord b y 0 s).extractLsb' 0 5 } ∧ t.chans = s.chans ∧ t.outputs = s.outputs ∧ t.a = s.a ∧
          t.q = s.q ∧ t.pc = s.pc ∧ t.ctl = (noteStorage b y s).ctl ∧ SameIndex s t ∧ SameSystem s t ∧ SameMemory s t) ∧
      (canWrite (opAddr b y s) 0 .whole s = true → Answers (exec (.storeChannelNumber b y) s) fun t =>
        let d := (opAddr b y s).word 0
        (wordAt t d).toNat = (if s.sel.useIasr then s.sel.iasr.toNat else if s.sel.usePecsr then s.sel.pecsr.toNat else 0o37) ∧
          MemoryKeptBut [d] s t ∧ ParityStored d .whole s t ∧ t.a = s.a ∧ t.q = s.q ∧ t.pc = s.pc ∧ t.ctl = (noteStorage b y s).ctl ∧ KeptButMemory s t) ∧
      (Answers (exec (.initiateSyncInterrupt b y) s) fun t =>
        t.outputs = (if (effective b y s).getLsbD 1 ∧ s.cfg.syncOut[1] = true then [Signal.sync1] else []) ++
          (if (effective b y s).getLsbD (if s.cfg.sync0AtBit0 then 0 else 10) ∧ s.cfg.syncOut[0] = true then [Signal.sync0] else []) ++ s.outputs ∧
          t.sel = s.sel ∧ t.chans = s.chans ∧ t.a = s.a ∧ t.q = s.q ∧ t.pc = s.pc ∧ t.ctl = (noteData b y s).ctl ∧ SameIndex s t ∧
          SameSystem s t ∧ SameMemory s t)) ∧
  ∀ c s rest, s.inputs = Event.eiUp c :: rest →
    let asked : CondInt := match channelMode s c with | .isi => .externalIsi c | .esi => .externalEsi c
    let rises := fitted s.cfg c = true ∧ (s.chans[c]).ei = false
    Answers (step s) fun t =>
      (rises → t.chans[c] = { s.chans[c] with ei := true } ∧ (∀ e, e ≠ c → t.chans[e] = s.chans[e]) ∧ asked ∈ t.pending ∧
        ∀ z, z ≠ asked → (z ∈ t.pending ↔ z ∈ s.pending)) ∧
      (¬ rises → t.chans = s.chans ∧ t.pending = s.pending) ∧ (t.setChans s.chans).setPending s.pending = s.setInputs rest

/-- 73 to 76, 66 and 67 outside guard mode: the BCW part that k names, and the channel flags. Outside guard mode, with a fitted
channel c in use, and for k other than 0 an operand that can be read and a BCR (fixed location 100 + c octal for input, 40 + c
for output) whose part can be written: 73 to 76 load the whole word (k = 3), the lower (1) or upper half (2) into the BCR, or
nothing (0), and activate the channel, with monitor for 75 and 76, for 74 and 76 as a function buffer iff j is odd. 66 with k
= 0 clears the input active and monitor flags, 67 with k of 0 to 2 the four output flags; 67 with k = 3 does nothing. Every
other word, channel and register but f1 is unchanged, and the parity bits of the written halves are right and all others as
before (R84, R125). The model's choices: the same is done on an ESI channel for k other than 0 and for odd j (log 53), and f1
is open where ybar is not used (log 30). (49_io.md R465, 49_io.md R466, 49_io.md R471, 49_io.md R472, 49_io.md R473, 49_io.md
R474, 49_io.md R475) -/
def Obligations.BuffersActivateAndTerminate : Prop :=
  (
    ∀ jh kh b y s c, Unguarded s → channelOf s.cfg (chanNow s) = some c →
      let part := if kh = 1#2 then Part.lower else if kh = 2#2 then Part.upper else Part.whole
      let w := operandWord b y 0 s
      let form := fun (i : Instr) (n : Nat) (after : Channel → Channel) =>
        let r : Addr := s.panel.msr ++ BitVec.ofNat 15 (n + c.val)
        (kh = 0#2 ∨ (canRead (opAddr b y s) 0 s = true ∧ installed s r = true ∧ testReadBad s r part = false)) →
        Answers (exec i s) fun t =>
          t.chans[c] = after s.chans[c] ∧ (∀ e, e ≠ c → t.chans[e] = s.chans[e]) ∧
          (kh = 0#2 → SameMemory s t) ∧
          (kh = 1#2 → wordAt t r = upperHalf (wordAt s r) ++ lowerHalf w) ∧
          (kh = 2#2 → wordAt t r = upperHalf w ++ lowerHalf (wordAt s r)) ∧
          (kh = 3#2 → wordAt t r = w) ∧
          (kh ≠ 0#2 → ParityStored r part s t) ∧
          MemoryKeptBut [r] s t ∧ t.a = s.a ∧ t.q = s.q ∧ t.pc = s.pc ∧ ControlKept s t ∧ SameIndex s t ∧ SameSystem s t ∧
          t.sel = s.sel ∧ t.outputs = s.outputs
      form (.activateInput jh kh b y) 0o100 (fun x => { x with inActive := true, inMon := false }) ∧
      form (.activateInputMonitor jh kh b y) 0o100 (fun x => { x with inActive := true, inMon := true }) ∧
      form (.activateOutput jh kh b y) 0o40
        (fun x => { x with outActive := true, outMon := false, efActive := jh.getLsbD 0, outDone := false }) ∧
      form (.activateOutputMonitor jh kh b y) 0o40
        (fun x => { x with outActive := true, outMon := true, efActive := jh.getLsbD 0, outDone := false })) ∧
  (
    ∀ b y s, Unguarded s →
      let rest := fun t : State => t.a = s.a ∧ t.q = s.q ∧ t.pc = s.pc ∧ ControlKept s t ∧ SameIndex s t ∧ SameSystem s t ∧
        SameMemory s t ∧ t.sel = s.sel ∧ t.outputs = s.outputs
      (∀ c, channelOf s.cfg (chanNow s) = some c →
        (Answers (exec (.terminateInput 0#4 0#2 b y) s) fun t => rest t ∧
          t.chans[c] = { s.chans[c] with inActive := false, inMon := false } ∧ ∀ e, e ≠ c → t.chans[e] = s.chans[e]) ∧
        (∀ kh, kh ≠ 3#2 → Answers (exec (.terminateOutput 0#4 kh b y) s) fun t => rest t ∧
          t.chans[c] = { s.chans[c] with outActive := false, outMon := false, efActive := false, outDone := false } ∧
          ∀ e, e ≠ c → t.chans[e] = s.chans[e])) ∧
      (Answers (exec (.terminateOutput 0#4 3#2 b y) s) fun t => rest t ∧ t.chans = s.chans))

/-- A CPU reference to wrong parity enters Memory Parity of its bank; a wrong BCW or data word of a transfer is reported and
handled. Where the operand word of a read- or Replace-class instruction, or the word at P, is installed, not denied, and of
wrong parity, or the half that STORE_A leaves is: Memory Parity of its bank is entered, P the next address or this one (U3;
this one under Repeat, with f1 the address), nothing stored, but STORE_A's half with right parity, and A and Q as before. A
wrong BCW: the location takes 0 with wrong parity, no word is stored; input acknowledges on ESI only, output sends all ones;
an ISI channel is deactivated, an ESI one not; BCWParity is requested; all else stays. A wrong output word, or a wrong lower
half at the address of an ESI input: the transfer leaves what it would leave with parity right, and IODataParity is requested
beside. The model's choices: what an instruction has done before the reference stays (log 28), an acknowledge ends IDR or ODR
(log 36), and which references are checked (log 46); in the odd-even mode the bank is any of the four (log 29). That an entry
clears f9 is the spec's decision D5 (R541), and that it and its first instruction are two steps the model's choice (log 5).
(20_memory.md R84, 20_memory.md R125, 60_exceptions.md R557, 60_exceptions.md R560, 60_exceptions.md R561, 48_sequence.md
R440, 49_io.md R489, 49_io.md R490, 93_implementation_defined.md U3, 60_exceptions.md R541) -/
def Obligations.WrongParityIsReported : Prop :=
  (∀ j k b y s, immediateK k = false →
    let o := opAddr b y s
    let a := o.word 0
    installed s a = true → wordBad s a = true → (o.checked = true → readProtected s = true → inside s a = true) →
    ∀ i ∈ [Instr.rightShiftQ, .rightShiftA, .rightShiftAq, .compare, .leftShiftQ, .leftShiftA, .leftShiftAq, .enterQ, .enterA, .addA,
        .subtractA, .multiply, .divide, .addQ, .subtractQ, .enterYPlusQ, .enterYMinusQ, .enterLp, .addLp, .subtractLp, .compareMasked,
        .selectiveSet, .selectiveComplement, .selectiveClear, .selectiveSubstitute, .replaceAPlusY, .replaceAMinusY, .replaceYPlusQ,
        .replaceYMinusQ, .replaceYPlus1, .replaceYMinus1, .replaceLp, .replaceAPlusLp, .replaceAMinusLp, .replaceSelectiveSet,
        .replaceSelectiveComplement, .replaceSelectiveClear, .replaceSelectiveSubstitute],
      (s.rep.active = false →
        ParityFaultAt a s.pc (noteStorage b y s) s (fun t => SameMemory s t ∧ t.a = s.a) (exec (i j k b y) s)) ∧
      (s.rep.active = true → s.rep.word.isSome = true →
        Answers (exec (i j k b y) s) fun t => ∃ n, ParityLocation s a n ∧ FaultedInRepeat n a s t ∧ t.a = s.a)) ∧
  (∀ j k b y s, storageK k = true → s.rep.active = false →
    let o := opAddr b y s
    let d := o.word 0
    let v := if 5 ≤ k.toNat then ~~~s.a else s.a
    installed s d = true → testReadBad s d (partOf k) = true → (o.checked = true → writeProtected s = true → inside s d = true) →
    ParityFaultAt d s.pc (noteStorage b y s) s (fun t => wordAt t d = mergePart (partOf k) (wordAt s d) v ∧ MemoryKeptBut [d] s t ∧
      ParityStored d (partOf k) s t ∧ t.a = s.a) (exec (.storeA j k b y) s)) ∧
  (∀ s, s.inputs = [] → s.run = true → s.fetch = .program → s.rep.active = false → timeoutDue s = false → dueInterrupt s = none →
    installed s s.pc = true → wordBad s s.pc = true →
    ParityFaultAt s.pc (s.pc + 1) s s (fun t => SameMemory s t ∧ t.a = s.a) (step s)) ∧
  (∀ (c : Fin 24) s,
    let esi := channelMode s c = .esi
    let asked := fun (x : CondInt) (t : State) => x ∈ t.pending ∧ ∀ z, z ≠ x → (z ∈ t.pending ↔ z ∈ s.pending)
    let place := fun n : Nat => if esi then s.panel.msr ++ lowerHalf (s.chans[c]).inLines else s.panel.msr ++ BitVec.ofNat 15 (n + c.val)
    let failed := fun (loc : Addr) (t : State) => wordAt t loc = 0 ∧ MemoryKeptBut [loc] s t ∧
      (∀ x upper, halfBad t x upper = (halfBad s x upper || decide (x = loc))) ∧ asked (.bcwParity c) t ∧ t.a = s.a ∧ t.q = s.q ∧
      t.pc = s.pc ∧ t.ctl = s.ctl ∧ SameIndex s t ∧ t.sel = s.sel ∧ t.run = s.run ∧ t.lockout = s.lockout ∧ t.rep = s.rep ∧
      t.fetch = s.fetch ∧ t.entryOpen = s.entryOpen ∧ t.inputs = s.inputs ∧ t.cfg = s.cfg ∧ t.clk = s.clk ∧ t.panel = s.panel ∧
      ∀ e, e ≠ c → t.chans[e] = s.chans[e]
    let reported := fun (u t : State) => (t.setPending u.pending).setParity u.parity = u ∧
      ∀ z, z ∈ t.pending ↔ z = .ioDataParity c ∨ z ∈ u.pending
    (let loc : Addr := place 0o100
     installed s loc = true → wordBad s loc = true → Answers (inputTransfer c s) fun t => failed loc t ∧
      (esi → t.outputs = .inputAck c :: s.outputs ∧ t.chans[c] = { s.chans[c] with idr := false }) ∧
      (¬ esi → t.outputs = s.outputs ∧ t.chans[c] = { s.chans[c] with inActive := false })) ∧
    (let loc : Addr := place 0o40
     (¬ esi → (s.chans[c]).outDone = false) → installed s loc = true → wordBad s loc = true →
     Answers (outputTransfer c s) fun t => failed loc t ∧ t.outputs = .outputAck c 0o7777777777#30 :: s.outputs ∧
      (esi → t.chans[c] = { s.chans[c] with odr := false }) ∧
      (¬ esi → t.chans[c] = { s.chans[c] with odr := false, outActive := false })) ∧
    (let loc : Addr := place 0o40
     let a : Addr := (wordAt s loc).extractLsb' 0 17
     (¬ esi → (s.chans[c]).outDone = false) → installed s loc = true → wordBad s loc = false → installed s a = true → loc ≠ a →
     installed s (s.panel.msr ++ BitVec.ofNat 15 (0o40 + c.val)) = true → wordBad s a = true →
     Answers (outputTransfer c (s.setParity (mendPart s.parity a .whole))) fun u => Answers (outputTransfer c s) fun t =>
      reported u t) ∧
    (let loc : Addr := place 0o100
     let a : Addr := (wordAt s loc).extractLsb' 0 17
     esi → installed s loc = true → wordBad s loc = false → installed s a = true → loc ≠ a → halfBad s a false = true →
     Answers (inputTransfer c (s.setParity (mendHalf s.parity a false))) fun u => Answers (inputTransfer c s) fun t =>
      reported u t ∧ halfBad t a false = true))

/-- 7761, 7762, 7765 and 7766 complete outside guard mode with the control registers of their rules. Outside guard mode, for
operands that can be had: 7761 loads IFR whole and RIR.IV from bits 16 to 6 of the next word, activates RIR, releases the hold
and starts the delayed activation, IFR_ACTIVE as it was; bit 29 of the word marks the Repeat to be resumed. 7762 loads PLR.UL
from bits 25 to 15 and LL from 10 to 0; 7766 loads RIR.IV from 16 to 6 and activates RIR; 7765 stores IFR whole, with the f1
its own execution wrote unless held. Nothing else changes; for 7765 the parity bits of the written halves are right and all
others as before (R84, R125). That the IFR word from before 7761 is kept as the one that governs on is the model's reading
(log 32, DEDUCED); directly after another 7761 neither of the two words read is limit-checked, the model's choice (log 56).
(41_transfer.md R240, 41_transfer.md R242, 41_transfer.md R243, 41_transfer.md R244) -/
def Obligations.ControlRegistersComplete : Prop :=
  ∀ b y s, Unguarded s →
    let n := noteStorage b y s
    (doubleReadable b y s = true → Answers (exec (.enterIfrRir b y) s) fun t =>
      t.ctl = { n.ctl with ifr := operandWord b y 0 s, oldIfr := n.ctl.ifr, rirIV := (operandWord b y 1 s).extractLsb' 6 11,
                           rirActive := true, ifrHold := false, newIfr := .loading,
                           reinit := n.ctl.reinit || (operandWord b y 0 s).getLsbD 29 } ∧
        t.a = s.a ∧ t.q = s.q ∧ t.pc = s.pc ∧ Kept s t) ∧
    (canRead (opAddr b y s) 0 s = true → Answers (exec (.loadPlr b y) s) fun t =>
      t.ctl = { n.ctl with plrUL := (operandWord b y 0 s).extractLsb' 15 11, plrLL := (operandWord b y 0 s).extractLsb' 0 11 } ∧
        t.a = s.a ∧ t.q = s.q ∧ t.pc = s.pc ∧ Kept s t) ∧
    (canRead (opAddr b y s) 0 s = true → Answers (exec (.enterRir b y) s) fun t =>
      t.ctl = { n.ctl with rirIV := (operandWord b y 0 s).extractLsb' 6 11, rirActive := true } ∧
        t.a = s.a ∧ t.q = s.q ∧ t.pc = s.pc ∧ Kept s t) ∧
    (canWrite (opAddr b y s) 0 .whole s = true → Answers (exec (.storeIfr b y) s) fun t =>
      let d := (opAddr b y s).word 0
      wordAt t d = n.ctl.ifr ∧ MemoryKeptBut [d] s t ∧ ParityStored d .whole s t ∧ t.ctl = n.ctl ∧ t.a = s.a ∧ t.q = s.q ∧ t.pc = s.pc ∧ KeptButMemory s t)

/-- The instruction after 7761: its first conversion uses the new RIR unchecked, and then the new IFR is in force. Directly after
7761 the first conversion of an instruction gives ybar plus the new RIR for every b, whatever the limits say, and leaves the
new IFR active and the delay over: of a direct 60 with j = 1 its destination; of an indirect one its operand word, and the
destination in that word is converted by the new IFR (17 bits for k = 3 by bit 26, LL for b of 4 and above by bit 27, else
RIR) and jumped to, or denied with f3 = 01 outside the limits; of ENTER_A with a storage k its operand. 60 with j = 1 releases
the lockout. Where the loaded IFR asks for a Repeat to be resumed, the jump makes the Repeat state active with j from f2 and
ybar from the low 17 bits of f1 (bit 26 set and the b designator of the word at the target 4 or above) or its low 15, not its
first execution, f1 unwritten. An instruction that makes no conversion leaves the IFR to be activated at its end by the step
(settleIfr). The model's readings: where an IFR was active before 7761 the old configuration is its word (log 32, DEDUCED),
and the b designator is that of the word at the target when P is loaded (log 59); the 17-bit target of k = 3 is the spec's
decision D15. That an entry clears f9 is the spec's decision D5 (R541), and that it and its first instruction are two steps
the model's choice (log 5). (41_transfer.md R241, 48_sequence.md R441, 20_memory.md R93, 20_memory.md R102, 48_sequence.md
R433, 30_encoding.md R158, 60_exceptions.md R541) -/
def Obligations.NewIfrTakesEffectAfterOneConversion : Prop :=
  (∀ b y s, s.ctl.newIfr = .due →
    let f := s.ctl.ifr
    let rir : Addr := s.ctl.rirIV ++ 0#6
    let jumped := fun (a : Addr) (t : State) => t.pc = a ∧ t.ctl.ifrActive = true ∧ t.ctl.newIfr = .settled ∧ t.lockout.locked = false ∧
      (s.ctl.reinit = false → t.rep = s.rep) ∧
      (s.ctl.reinit = true → t.ctl.ifr = f ∧ t.ctl.reinit = false ∧ t.rep =
        { active := true, j := f.extractLsb' 18 3, first := false, word := none,
          ybar := if f.getLsbD 26 = true ∧ 4 ≤ ((wordAt s a).extractLsb' 15 3).toNat then f.extractLsb' 0 17
            else (f.extractLsb' 0 15).setWidth 17 })
    let operand := effective b y s + rir
    let w := wordAt s operand
    (Answers (exec (.jumpArithmetic 1#3 0#3 b y) s) (jumped operand)) ∧
    (installed s operand = true → wordBad s operand = false → ∀ k, immediateK k = false →
      let target : Addr := if k = 2#3 ∨ k = 6#3 then (w.extractLsb' 15 15).setWidth 17
        else if k = 3#3 ∧ f.getLsbD 26 = true then w.extractLsb' 0 17 else (w.extractLsb' 0 15).setWidth 17
      let d := target + (if s.ctl.rirActive = false then s.panel.msr ++ 0#15
        else if f.getLsbD 27 = true ∧ 4 ≤ b.toNat then s.ctl.plrLL ++ 0#6 else rir)
      let within := s.ctl.plrLL.toNat * 64 ≤ d.toNat ∧ d.toNat ≤ s.ctl.plrUL.toNat * 64 + 63
      (f.extractLsb' 21 2 ≠ 1#2 ∨ within → Answers (exec (.jumpArithmetic 1#3 k b y) s) (jumped d)) ∧
      (f.extractLsb' 21 2 = 1#2 ∧ ¬ within → s.rep.active = false → Answers (exec (.jumpArithmetic 1#3 k b y) s) fun t =>
        EnteredFault 0o1#15 s t ∧ IfrEntered (jumpNote k s) t ∧ SameMemory s t ∧ t.a = s.a ∧ t.q = s.q) ∧
      ∀ j, Answers (exec (.enterA j k b y) s) fun t =>
        t.a = (if k = 1#3 then (w.extractLsb' 0 15).setWidth 30 else if k = 2#3 then (w.extractLsb' 15 15).setWidth 30
          else if k = 3#3 then w else if k = 5#3 then (w.extractLsb' 0 15).signExtend 30 else (w.extractLsb' 15 15).signExtend 30) ∧
        t.ctl.ifrActive = true ∧ t.ctl.newIfr = .settled)) ∧
  (∀ s, (s.ctl.newIfr = .loading → (settleIfr s).ctl = { s.ctl with newIfr := .due }) ∧
    (s.ctl.newIfr = .due → (settleIfr s).ctl = { s.ctl with ifrActive := true, newIfr := .settled }) ∧
    (s.ctl.newIfr = .settled → settleIfr s = s))

/-- Taking an interrupt outside a Repeat sequence: location, lockout, IFR and RIR, channel registers, all else kept. For every
interrupt of R523 in every state without a Repeat sequence: the next instruction is the one at its fixed location; P, A, Q,
both index sets, PLR, RIR.IV, CSR, storage and channels are unchanged; IFR and RIR are inactive, the IFR is held with f9
cleared unless it was held or a Repeat was to be resumed; lockout is set and not by SIL. An External or Monitor interrupt puts
its channel in IASR and in use, a parity one in PECSR; any other clears both uses. That f9 is cleared is the spec's decision
D5 (R541); that the word at the fixed location is still to run, and RIR.IV still to be cleared, is the model's choice of two
steps for the one sequence of R541 (log 5). (60_exceptions.md R523, 60_exceptions.md R541, 10_state.md R49) -/
def Obligations.InterruptEntry : Prop :=
  ∀ (x : Interrupt) (a : Option Addr) (s : State), s.rep.active = false →
    let t := enter x a s
    let onIasr := fun c : Fin 24 => t.sel.iasr.toNat = c.val ∧ t.sel.useIasr = true ∧ t.sel.usePecsr = false ∧ t.sel.pecsr = s.sel.pecsr
    let onPecsr := fun c : Fin 24 => t.sel.pecsr.toNat = c.val ∧ t.sel.usePecsr = true ∧ t.sel.useIasr = false ∧ t.sel.iasr = s.sel.iasr
    let onNone := t.sel = { s.sel with useIasr := false, usePecsr := false }
    (∃ n, Entered n s t ∧
      match x with
      | .uncond .illegalInstruction => n = 0o0#15 ∧ onNone
      | .uncond .programProtection => n = 0o1#15 ∧ onNone
      | .uncond .timeout => n = 0o1#15 ∧ onNone
      | .cond .powerLoss => n = 0o2#15 ∧ onNone
      | .uncond (.memoryParity bank) => [0o3#15, 0o4#15, 0o23#15, 0o27#15][bank.toNat]? = some n ∧ onNone
      | .cond (.bcwParity c) => n = 0o5#15 ∧ onPecsr c
      | .cond (.ioDataParity c) => n = 0o6#15 ∧ onPecsr c
      | .uncond .executiveReturn => n = 0o7#15 ∧ onNone
      | .uncond .fpUnderflow => n = 0o10#15 ∧ onNone
      | .uncond .fpOverflow => n = 0o11#15 ∧ onNone
      | .cond .sync0 => n = 0o12#15 ∧ onNone
      | .cond .sync1 => n = 0o13#15 ∧ onNone
      | .cond .realTimeClock => n = 0o14#15 ∧ onNone
      | .cond .dayClock => n = 0o15#15 ∧ onNone
      | .cond (.externalEsi c) => n = 0o20#15 ∧ onIasr c
      | .cond (.inputMonitorEsi c) => n = 0o21#15 ∧ onIasr c
      | .cond (.outputMonitorEsi c) => n = 0o22#15 ∧ onIasr c
      | .cond (.externalIsi c) => n = 0o24#15 ∧ onIasr c
      | .cond (.inputMonitorIsi c) => n = 0o25#15 ∧ onIasr c
      | .cond (.outputMonitorIsi c) => n = 0o26#15 ∧ onIasr c
      | .uncond .testAndSet => 0o30 ≤ n.toNat ∧ n.toNat ≤ 0o37 ∧ onNone) ∧
    IfrEntered s t ∧ t.a = s.a ∧ t.q = s.q ∧ SameMemory s t ∧ t.pending = s.pending

/-- Taking an interrupt inside a Repeat sequence: P goes back, and the IFR records f9, f2 and f1 unless it is held. In every state
with a Repeat sequence whose repeated instruction has been fetched: taking any interrupt sets P back by one, ends the sequence
and keeps B7. Unless the IFR is held, f9 is 1 and f2 is the j of the Repeat; f1 is the current ybar for a conditional
interrupt and the address given for an unconditional one; every other bit of the IFR is unchanged. A held IFR is not touched.
(The case with no address is open, log 34.) That the entry and its first instruction are two steps is the model's choice (log
5). (48_sequence.md R440, 10_state.md R37, 60_exceptions.md R541) -/
def Obligations.InterruptInsideRepeat : Prop :=
  ∀ (x : Interrupt) (a : Addr) (s : State), s.rep.active = true → s.rep.word.isSome = true →
    let t := enter x (some a) s
    t.pc = s.pc - 1 ∧ t.rep.active = false ∧ SameIndex s t ∧ t.a = s.a ∧ t.q = s.q ∧ SameMemory s t ∧
      t.ctl.ifrHold = true ∧ t.ctl.ifrActive = false ∧ t.lockout.locked = true ∧ t.fetch = .fixed (x.location s.cfg) ∧
      (s.ctl.ifrHold = true → t.ctl.ifr = s.ctl.ifr) ∧
      (s.ctl.ifrHold = false → t.ctl.ifr.getLsbD 29 = true ∧ t.ctl.ifr.extractLsb' 18 3 = s.rep.j ∧
        t.ctl.ifr.extractLsb' 0 17 = (match x with | .cond _ => s.rep.ybar | .uncond _ => a) ∧
        t.ctl.ifr.extractLsb' 21 8 = s.ctl.ifr.extractLsb' 21 8 ∧ t.ctl.ifr.getLsbD 17 = s.ctl.ifr.getLsbD 17)

/-- In guard mode every privileged word is an Illegal Instruction before it does anything. For every word whose codes are in
R172's list (13, 17, 62, 63, 66, 67, 73 to 76; 77 words 60 to 67, 70, 72, 73, 74, 76, 77; octal) and every state in guard mode
outside a Repeat sequence, the decoded instruction enters fixed location 0: A, Q, P, index registers, storage, PLR, RIR.IV,
channels, channel registers, signals and pending requests are unchanged, and f1 is as the previous instruction left it. That
f1 stays as it was is the spec's derived step order (R190, R551), that f9 is cleared its decision D5 (R541), and that the
entry and its first instruction are two steps the model's choice (log 5). (30_encoding.md R172, 30_encoding.md R190,
60_exceptions.md R541, 60_exceptions.md R551) -/
def Obligations.PrivilegedWordsTrapInGuardMode : Prop :=
  ∀ (w : Word) (s : State), privilegedWord w = true → s.ctl.ifrActive = true → (govIfr s).getLsbD 21 = true → s.rep.active = false →
    Answers (exec (decode w) s) fun t =>
      EnteredFault 0#15 s t ∧ IfrEntered s t ∧ SameMemory s t ∧ t.a = s.a ∧ t.q = s.q

/-- A read, write or jump outside the limits enters Program Protection with nothing written and P not loaded. With IFR active, no
newly loaded IFR and an address outside the PLR limits, Program Protection is entered with storage and Q unchanged: with f3 =
01 by ENTER_A of a storage operand, by the thirteen Replace-class instructions and 7752 of their operand, and by a direct
JUMP_MANUAL and an EXECUTE_REMOTE; with f3 not 00 by STORE_A to a storage destination and by the Replace-class instructions at
the place they store to, their operand readable (A is as before or the result, U2, log 17); with f3 = 10 or 11 by 7752 whose
bit 14 is 0. A is else unchanged. Outside a Repeat sequence P is the next address and f1 the offending address, or for a jump
that P, unless f1 may not be written. Inside one P is back at the repeated instruction, the sequence is over, and the IFR,
unless held, has f9 = 1, the j of the Repeat and the offending address. That an entry clears f9 is the spec's decision D5
(R541), and that it and its first instruction are two steps the model's choice (log 5). (20_memory.md R100, 20_memory.md R101,
20_memory.md R102, 20_memory.md R104, 48_sequence.md R440, 60_exceptions.md R550, 93_implementation_defined.md U2,
60_exceptions.md R541) -/
def Obligations.ProtectionDeniesTheReference : Prop :=
  ∀ b y s, s.ctl.ifrActive = true → s.ctl.newIfr = .settled →
    let a := (opAddr b y s).base
    let d := (replaceDest b y s).base
    let f3 := s.ctl.ifr.extractLsb' 21 2
    let outside := fun x : Addr => ¬ (s.ctl.plrLL.toNat * 64 ≤ x.toNat ∧ x.toNat ≤ s.ctl.plrUL.toNat * 64 + 63)
    let same := fun v : Word => v = s.a
    let replace : List ((BitVec 3 → BitVec 3 → BitVec 3 → BitVec 15 → Instr) × (Word → Word)) :=
      [(.replaceAPlusY, fun v => onesAdd s.a v), (.replaceAMinusY, fun v => onesSub s.a v), (.replaceYPlusQ, fun v => onesAdd v s.q),
        (.replaceYMinusQ, fun v => onesSub v s.q), (.replaceYPlus1, fun v => onesAdd v 1), (.replaceYMinus1, fun v => onesSub v 1),
        (.replaceLp, fun v => v &&& s.q), (.replaceAPlusLp, fun v => onesAdd s.a (v &&& s.q)),
        (.replaceAMinusLp, fun v => onesSub s.a (v &&& s.q)), (.replaceSelectiveSet, fun v => s.a ||| v),
        (.replaceSelectiveComplement, fun v => s.a ^^^ v), (.replaceSelectiveClear, fun v => s.a &&& ~~~v),
        (.replaceSelectiveSubstitute, fun v => (s.a &&& ~~~s.q) ||| (v &&& s.q))]
    (outside a → f3 = 1#2 →
      (∀ j k, immediateK k = false → DeniedAt a a same s (exec (.enterA j k b y) s)) ∧
      (∀ r ∈ replace, ∀ j k, replaceK k = true → DeniedAt a a same s (exec (r.1 j k b y) s)) ∧
      DeniedAt a a same s (exec (.testAndSet b y) s) ∧
      DeniedAt a s.pc same s (exec (.jumpManual 0#3 0#3 b y) s) ∧ DeniedAt a s.pc same s (exec (.executeRemote b y) s)) ∧
    (outside a → f3 ≠ 0#2 → ∀ j k, storageK k = true → DeniedAt a a same s (exec (.storeA j k b y) s)) ∧
    (canRead (opAddr b y s) 0 s = true → outside d → f3 ≠ 0#2 → ∀ r ∈ replace, ∀ j k, replaceK k = true →
      DeniedAt d d (fun v => v = s.a ∨ v = r.2 (operandValue k b y s)) s (exec (r.1 j k b y) s)) ∧
    (canRead (opAddr b y s) 0 s = true → outside a → f3.getLsbD 1 = true → (operandWord b y 0 s).getLsbD 14 = false →
      DeniedAt a a same s (exec (.testAndSet b y) s))

/-- Where the manual gives no effect the model stops by name: forbidden designators, counts above 59, absent storage. The thirteen
Replace-class instructions with k of 0, 4 and 7, and 23, 47, 50, 52 and 53 with k = 7, are refused in every state; 13, 17, 62,
63, 66 and 67 with a nonzero j outside guard mode too, and 66 with a nonzero k; a shift whose operand can be had with a count
above 59 is refused; ENTER_A of a word beyond the installed storage that the limits allow is the fault of U1, and an
activation on a channel that is not fitted the fault of U12. (93_implementation_defined.md 1 (U1, U6, U7, U12), 30_encoding.md
R173, 30_encoding.md R165, 40_shift.md R200, 20_memory.md R83) -/
def Obligations.StopsAreNamed : Prop :=
  (∀ i ∈ [Instr.replaceAPlusY, .replaceAMinusY, .replaceYPlusQ, .replaceYMinusQ, .replaceYPlus1, .replaceYMinus1, .replaceLp,
      .replaceAPlusLp, .replaceAMinusLp, .replaceSelectiveSet, .replaceSelectiveComplement, .replaceSelectiveClear,
      .replaceSelectiveSubstitute], ∀ j k b y s, k = 0#3 ∨ k = 4#3 ∨ k = 7#3 → exec (i j k b y) s = .refused .forbiddenDesignator) ∧
  (∀ i ∈ [Instr.divide, .storeLp, .selectiveSet, .selectiveClear, .selectiveSubstitute], ∀ j b y s,
    exec (i j 7#3 b y) s = .refused .forbiddenDesignator) ∧
  (∀ i ∈ [Instr.sendExternalFunction, .storeChannel, .jumpActiveInput, .jumpActiveOutput, .terminateInput, .terminateOutput],
    ∀ jh kh b y s, Unguarded s → jh ≠ 0#4 → exec (i jh kh b y) s = .refused .forbiddenDesignator) ∧
  (∀ kh b y s, Unguarded s → kh ≠ 0#2 → exec (.terminateInput 0#4 kh b y) s = .refused .forbiddenDesignator) ∧
  (∀ i ∈ [Instr.rightShiftQ, .rightShiftA, .rightShiftAq, .leftShiftQ, .leftShiftA, .leftShiftAq], ∀ j k b y s,
    operandReadable k b y s = true → 59 < (operandValue k b y s).toNat % 64 → exec (i j k b y) s = .refused .shiftCountAbove59) ∧
  (∀ i ∈ [Instr.logicalRightShiftQ, .logicalRightShiftA, .logicalRightShiftAq], ∀ b y s,
    59 < (effective b y s).toNat % 64 → exec (i b y) s = .refused .shiftCountAbove59) ∧
  (∀ j b y s, readProtected s = false → s.ctl.newIfr = .settled → installed s (opAddr b y s).base = false →
    exec (.enterA j 3#3 b y) s = .fault .storageNotInstalled) ∧
  (∀ jh kh b y s, Unguarded s → channelOf s.cfg (chanNow s) = none → exec (.activateInput jh kh b y) s = .fault .channelNotFitted)

/-- The step takes the pending request of best rank and channel, and Timeout after 100 microseconds of SIL. On a running CPU
between instructions, with no script: with the lockout clear, no hardware lockout and a request pending, the step takes a
pending request than which no other has a better rank, or the same rank and a better channel, enters its location and leaves
the others pending. With lockout set by SIL for over 100000 ns in guard mode the step enters Timeout. Taking a due request at
the first opportunity is the model's choice (log 8, D1). That an entry clears f9 is the spec's decision D5 (R541), and that it
and its first instruction are two steps the model's choice (log 5). (60_exceptions.md R532, 60_exceptions.md R533,
60_exceptions.md R534, 60_exceptions.md R535, 60_exceptions.md R552, 60_exceptions.md R541) -/
def Obligations.DueInterruptsAreTakenInOrder : Prop :=
  (∀ s, s.inputs = [] → s.run = true → s.fetch = .program → s.rep.active = false → s.lockout.locked = false → s.ctl.newIfr ≠ .due →
    s.pending ≠ [] →
    ∃ x ∈ s.pending, (∀ y ∈ s.pending, x.rank < y.rank ∨ (x.rank = y.rank ∧ x.place ≤ y.place)) ∧
      Answers (step s) fun t => Entered x.location s t ∧ t.pending = s.pending.erase x ∧ IfrEntered s t ∧ SameMemory s t ∧
        t.a = s.a ∧ t.q = s.q) ∧
  (∀ s, s.inputs = [] → s.run = true → s.fetch = .program → s.rep.active = false → guardOn s = true → s.lockout.locked = true →
    s.lockout.bySil = true → 100000 < s.lockout.silTimer →
    Answers (step s) fun t => EnteredFault 0o1#15 s t ∧ IfrEntered s t ∧ SameMemory s t ∧ t.a = s.a ∧ t.q = s.q) ∧
  (∀ c : Fin 24, ([15, 14, 13, 12, 11, 10, 9, 8, 23, 22, 21, 20, 19, 18, 17, 16, 7, 6, 5, 4, 3, 2, 1, 0] : List Nat)[channelPlace c]? =
    some c.val)

/-- A step runs the decoded word at P, or at an interrupt's fixed location with P as it is, and ends the instruction. On a running
CPU with no script and nothing due, with the word at P in installed storage, of right parity and not overwritten by the last
instruction, the step is exec of the decoded word on the state with P advanced; with an interrupt entered it is exec of the
decoded word at the fixed location with P as it is. What exec answers is passed on; a next state is finished: the delayed
activation counts down, an entry is closed with RIR cleared, an unfollowed reinitiation stops. The entry in two steps is log 5
(DESIGN CHOICE); that an open entry ends with RIR cleared after 7761 or 7766 too is log 42; that an unfollowed reinitiation
stops is log 14 (DEDUCED from R441, U17). (30_encoding.md R190, 20_memory.md R91, 60_exceptions.md R541, 60_exceptions.md
R542, 41_transfer.md R241, 48_sequence.md R441, 93_implementation_defined.md U17) -/
def Obligations.StepRunsDecodedInstruction : Prop :=
  ∀ s, s.inputs = [] → s.run = true →
    let runs := fun (i : Instr) (u : State) =>
      (∀ t, exec i u = .next t →
        (t.fetch ≠ .program → step s = .next t) ∧
        (t.fetch = .program → s.ctl.reinit = true → t.ctl.reinit = true → step s = .fault .reinitiationNotFollowedByJump) ∧
        (t.fetch = .program → ¬ (s.ctl.reinit = true ∧ t.ctl.reinit = true) → step s = .next (closeEntry (settleIfr t)))) ∧
      (∀ r, exec i u = .fault r → step s = .fault r) ∧ (∀ r, exec i u = .refused r → step s = .refused r)
    (s.fetch = .program → s.rep.active = false → timeoutDue s = false → dueInterrupt s = none → installed s s.pc = true →
      wordBad s s.pc = false → (∀ c ∈ s.overlap, c.1 ≠ s.pc) →
      runs (decode (wordAt s s.pc)) ((s.setPc (s.pc + 1)).setOverlap [])) ∧
    (∀ n, s.fetch = .fixed n →
      let a : Addr := s.panel.msr ++ n
      installed s a = true → wordBad s a = false → runs (decode (wordAt s a)) ((s.setFetch .program).setOverlap []))

/-- One execution of a repeated instruction: ybar as stepped, B7 counted down, and when the sequence ends. On a running CPU with
no script and nothing due, in a Repeat sequence past its first execution with a nonzero count, the step runs the repeated
instruction; if it answers a next state u without an interrupt, then B7 is one less, ybar is stepped by 0, 1, -1 or (B_b) as j
says (past the top or below zero it is one of the two values of U16), and the sequence ends where B7 reaches 0, or, by the
parameter of D33, where the skip was satisfied. That the count is the physical 17 bits of B7 in 15-bit operation too is the
model's reading (log 33, DEDUCED; D35). (48_sequence.md R433, 48_sequence.md R436, 48_sequence.md R439) -/
def Obligations.RepeatedExecutionSteps : Prop :=
  ∀ i b y s w u, s.inputs = [] → s.run = true → s.fetch = .program → timeoutDue s = false → dueInterrupt s = none → s.rep.active = true →
    s.rep.first = false → s.rep.word = some w → decode w = i → repeatFields i = some (b, y) → repeatCountLeft s ≠ 0 →
    exec i (s.setOverlap []) = .next u → u.fetch = .program →
    let m := ybarWidth b u
    let r := u.rep.ybar.toNat % 2 ^ m
    Answers (step s) fun t =>
      t.a = u.a ∧ t.q = u.q ∧ t.ctl = u.ctl ∧ t.mem = u.mem ∧ t.rep.j = u.rep.j ∧
      (bSetOf (bView u) t).b7 = repeatCountLeft u - 1 ∧
      (let d := (bRead b t).toNat
       (u.rep.j.toNat % 4 = 0 → t.rep.ybar.toNat = r) ∧
       (u.rep.j.toNat % 4 = 1 → (r + 1 < 2 ^ m → t.rep.ybar.toNat = r + 1) ∧ (2 ^ m ≤ r + 1 → t.rep.ybar.toNat = 0 ∨ t.rep.ybar.toNat = 1)) ∧
       (u.rep.j.toNat % 4 = 2 → (0 < r → t.rep.ybar.toNat = r - 1) ∧
         (r = 0 → t.rep.ybar.toNat = 2 ^ m - 1 ∨ t.rep.ybar.toNat = 2 ^ m - 2)) ∧
       (u.rep.j.toNat % 4 = 3 → (r + d < 2 ^ m → t.rep.ybar.toNat = r + d) ∧
         (2 ^ m ≤ r + d → t.rep.ybar.toNat = (r + d) % 2 ^ m ∨ t.rep.ybar.toNat = (r + d) % 2 ^ m + (r + d) / 2 ^ m))) ∧
      (u.pc ≠ s.pc ∧ s.cfg.repeatSkip = .terminate → u.cfg = s.cfg → t.pc = u.pc ∧ t.rep.active = false) ∧
      (u.pc = s.pc ∨ (s.cfg.repeatSkip = .ignore ∧ u.cfg = s.cfg) →
        t.pc = s.pc ∧ t.rep.active = (u.rep.active && decide (repeatCountLeft u - 1 ≠ 0)))

/-- ISI transfers: the BCW in the BCR is updated, the word moves, the signal goes out, the last word ends the buffer. For an ISI
channel whose BCR and data word are installed with right parity: an input transfer stores the input lines at the BCW's address
and acknowledges; an output transfer sends the word there with Output Acknowledge or External Function. The BCW then has its
count one less and its address one more. With the last word input is deactivated and a monitor request made where asked;
output waits for the next request, which deactivates it, sends nothing and makes the request. That an acknowledge ends IDR or
ODR is the model's choice (log 36). (49_io.md R481, 49_io.md R482, 49_io.md R483) -/
def Obligations.IsiTransfers : Prop :=
  ∀ (c : Fin 24) s, channelMode s c = .isi →
    let inR : Addr := s.panel.msr ++ BitVec.ofNat 15 (0o100 + c.val)
    let outR : Addr := s.panel.msr ++ BitVec.ofNat 15 (0o40 + c.val)
    let next := fun w : Word => (w.extractLsb' 18 12 - 1) ++ w.extractLsb' 17 1 ++ (w.extractLsb' 0 17 + 1)
    let last := fun w : Word => w.extractLsb' 18 12 = 1#12
    let asked := fun (x : CondInt) (t : State) => x ∈ t.pending ∧ ∀ z, z ≠ x → (z ∈ t.pending ↔ z ∈ s.pending)
    let rest := fun t : State => t.a = s.a ∧ t.q = s.q ∧ t.pc = s.pc ∧ t.ctl = s.ctl ∧ SameIndex s t ∧ t.sel = s.sel ∧ t.run = s.run ∧
      t.lockout = s.lockout ∧ t.rep = s.rep ∧ t.fetch = s.fetch ∧ ∀ e, e ≠ c → t.chans[e] = s.chans[e]
    (let w := wordAt s inR
     let a : Addr := w.extractLsb' 0 17
     installed s inR = true → wordBad s inR = false → installed s a = true →
     Answers (inputTransfer c s) fun t =>
      wordAt t a = (s.chans[c]).inLines ∧ (inR ≠ a → wordAt t inR = next w) ∧ MemoryKeptBut [inR, a] s t ∧
      t.outputs = .inputAck c :: s.outputs ∧ (t.chans[c]).idr = false ∧
      (last w → (t.chans[c]).inActive = false) ∧ (¬ last w → (t.chans[c]).inActive = (s.chans[c]).inActive) ∧
      (if last w ∧ (s.chans[c]).inMon = true then asked (.inputMonitorIsi c) t else t.pending = s.pending) ∧ rest t) ∧
    (let w := wordAt s outR
     let a : Addr := w.extractLsb' 0 17
     (s.chans[c]).outDone = false → installed s outR = true → wordBad s outR = false → installed s a = true → wordBad s a = false →
      outR ≠ a →
     Answers (outputTransfer c s) fun t =>
      wordAt t outR = next w ∧ MemoryKeptBut [outR] s t ∧
      t.outputs = (if (s.chans[c]).efActive then .externalFunction c (wordAt s a) else .outputAck c (wordAt s a)) :: s.outputs ∧
      (t.chans[c]).odr = false ∧ (t.chans[c]).outActive = (s.chans[c]).outActive ∧
      ((t.chans[c]).outDone = true ↔ last w) ∧ t.pending = s.pending ∧ rest t) ∧
    ((s.chans[c]).outDone = true → Answers (outputTransfer c s) fun t =>
      (t.chans[c]).outActive = false ∧ (t.chans[c]).outDone = false ∧ SameMemory s t ∧ t.outputs = s.outputs ∧
      (if (s.chans[c]).outMon then asked (.outputMonitorIsi c) t else t.pending = s.pending) ∧ rest t)

/-- ESI transfers: the BCW at the location the device names; character into the upper half; location saved at the end. For an ESI
channel whose BCW location (MSR with the low half of the input lines) and data word are installed, distinct and of right
parity, and for output whose output BCR is installed and not the BCW location: an input transfer stores the upper half of the
lines in the upper half of the data word and keeps its lower half; an output transfer sends the data word. The BCW is updated.
With the last word the channel is deactivated and a monitor request made where asked, and for output the lower half of the
output BCR takes the location. Every other word and channel, every register and the rest of the system are unchanged. That an
acknowledge ends IDR or ODR is the model's choice (log 36). The half-word write of the location into the output BCR requests
nothing, whatever the parity of the half it leaves: the model's choice (log 46). (49_io.md R484, 49_io.md R485, 49_io.md R486,
20_memory.md R84, 20_memory.md R125) -/
def Obligations.EsiTransfers : Prop :=
  ∀ (c : Fin 24) s, channelMode s c = .esi →
    let lines := (s.chans[c]).inLines
    let loc : Addr := s.panel.msr ++ lowerHalf lines
    let outR : Addr := s.panel.msr ++ BitVec.ofNat 15 (0o40 + c.val)
    let w := wordAt s loc
    let a : Addr := w.extractLsb' 0 17
    let next := (w.extractLsb' 18 12 - 1) ++ w.extractLsb' 17 1 ++ (w.extractLsb' 0 17 + 1)
    let last := w.extractLsb' 18 12 = 1#12
    let asked := fun (x : CondInt) (t : State) => x ∈ t.pending ∧ ∀ z, z ≠ x → (z ∈ t.pending ↔ z ∈ s.pending)
    let rest := fun t : State => t.a = s.a ∧ t.q = s.q ∧ t.pc = s.pc ∧ t.ctl = s.ctl ∧ SameIndex s t ∧ t.sel = s.sel ∧ t.run = s.run ∧
      t.lockout = s.lockout ∧ t.rep = s.rep ∧ t.fetch = s.fetch ∧ t.entryOpen = s.entryOpen ∧ t.inputs = s.inputs ∧ t.cfg = s.cfg ∧
      t.clk = s.clk ∧ t.panel = s.panel ∧ ∀ e, e ≠ c → t.chans[e] = s.chans[e]
    installed s loc = true → wordBad s loc = false → installed s a = true → wordBad s a = false → loc ≠ a →
    (Answers (inputTransfer c s) fun t =>
      wordAt t a = upperHalf lines ++ lowerHalf (wordAt s a) ∧ wordAt t loc = next ∧ MemoryKeptBut [loc, a] s t ∧
      t.outputs = .inputAck c :: s.outputs ∧ (t.chans[c]).idr = false ∧ rest t ∧
      (last → (t.chans[c]).inActive = false) ∧ (¬ last → (t.chans[c]).inActive = (s.chans[c]).inActive) ∧
      (if last ∧ (s.chans[c]).inMon = true then asked (.inputMonitorEsi c) t else t.pending = s.pending)) ∧
    (installed s outR = true → outR ≠ loc → Answers (outputTransfer c s) fun t =>
      wordAt t loc = next ∧ t.outputs = .outputAck c (wordAt s a) :: s.outputs ∧ MemoryKeptBut [loc, outR] s t ∧
      (t.chans[c]).odr = false ∧ rest t ∧
      (last → (t.chans[c]).outActive = false ∧ wordAt t outR = upperHalf (wordAt s outR) ++ lowerHalf lines) ∧
      (¬ last → (t.chans[c]).outActive = (s.chans[c]).outActive ∧ wordAt t outR = wordAt s outR) ∧
      (if last ∧ (s.chans[c]).outMon = true then asked (.outputMonitorEsi c) t else t.pending = s.pending))

/-- The clock agents: the day clock word, the real-time count, and its interrupt when the count recycles. Where the fixed
locations are installed: a day clock update writes the 22 data bits with eight zeros below at 16 octal; a real-time clock
update makes the word at 17 octal its low 18 bits plus 1 modulo 2^18, with zeros above, and requests the Real-Time Clock
interrupt iff they were all ones. Every other word and every register is unchanged. The parity of the old word at 17 octal is
not checked, so a wrong one requests nothing and is counted on: the model's choice (logs 37 and 46). (60_exceptions.md R580,
60_exceptions.md R583, 60_exceptions.md R584, 20_memory.md R125) -/
def Obligations.ClockUpdates : Prop :=
  ∀ s,
    let day : Addr := s.panel.msr ++ 0o16#15
    let rtc : Addr := s.panel.msr ++ 0o17#15
    let rest := fun t : State => t.a = s.a ∧ t.q = s.q ∧ t.pc = s.pc ∧ t.ctl = s.ctl ∧ SameIndex s t ∧ t.sel = s.sel ∧ t.chans = s.chans ∧
      t.lockout = s.lockout ∧ t.rep = s.rep ∧ t.outputs = s.outputs
    (∀ d, installed s day = true → Answers (dayClockUpdate d s) fun t =>
      (wordAt t day).toNat = d.toNat * 2 ^ 8 ∧ MemoryKeptBut [day] s t ∧ t.pending = s.pending ∧ rest t) ∧
    (installed s rtc = true → Answers (rtcUpdate s) fun t =>
      (wordAt t rtc).toNat = ((wordAt s rtc).toNat % 2 ^ 18 + 1) % 2 ^ 18 ∧ MemoryKeptBut [rtc] s t ∧
      ((wordAt s rtc).toNat % 2 ^ 18 ≠ 2 ^ 18 - 1 → t.pending = s.pending) ∧
      ((wordAt s rtc).toNat % 2 ^ 18 = 2 ^ 18 - 1 → CondInt.realTimeClock ∈ t.pending ∧
        ∀ z, z ≠ .realTimeClock → (z ∈ t.pending ↔ z ∈ s.pending)) ∧ rest t)

/-- The 30-bit and 60-bit adder and subtracter: end-around by formula, and the three sentences on negative zero. For both widths
w, with M = 2^w - 1: a + b is the sum where below M and else the sum less M; a - b is the difference where a >= b and else the
difference plus M; a - b is a + complement of b; a sum is -0 only where both terms are -0, a difference only where a is -0 and
b is +0; x - x is +0; in all other cases a negative zero acts as a positive one; addition is commutative. (42_arith_integer.md
R262, 42_arith_integer.md R263, 42_arith_integer.md R264) -/
def Obligations.OnesComplementAdder : Prop :=
  let laws := fun (w : Nat) => ∀ a b : BitVec w,
    let m := 2 ^ w - 1
    (onesAdd a b).toNat = (if a.toNat + b.toNat < m then a.toNat + b.toNat else a.toNat + b.toNat - m) ∧
    (onesSub a b).toNat = (if b.toNat ≤ a.toNat then a.toNat - b.toNat else a.toNat + m - b.toNat) ∧
    onesAdd a b = onesSub a (~~~b) ∧ onesAdd a b = onesAdd b a ∧ onesSub a a = 0 ∧
    (onesAdd a b = BitVec.allOnes w ↔ a = BitVec.allOnes w ∧ b = BitVec.allOnes w) ∧
    (onesSub a b = BitVec.allOnes w ↔ a = BitVec.allOnes w ∧ b = 0) ∧
    (a ≠ BitVec.allOnes w → onesSub a (BitVec.allOnes w) = onesSub a 0) ∧
    (b ≠ 0 → onesSub (BitVec.allOnes w) b = onesSub 0 b)
  laws 30 ∧ laws 60

/-- The index addition: 15 or 17 bits, end-around carry, and zero only from zeros. For every b, y and state, with n the width (17
where b is 4 or above and that register is 17 bits wide, else 15) and v the register's value (0 for b = 0): ybar is the sum
below 2^n plus the carry out, and is itself below 2^n; it is zero only where y is zero and b is 0 or v is 0. The two examples
of R151 come out: y = 77777 with 1 in 15 bits gives 1, with 300001 in 17 bits gives 1. (30_encoding.md R150, 30_encoding.md
R151, 30_encoding.md R152) -/
def Obligations.IndexSumIsEndAround : Prop :=
  (∀ b y s,
    let n := if 4 ≤ b.toNat ∧ ((bView s).wide = true) then 17 else 15
    let v := if b = 0#3 then 0 else (bRead b s).toNat
    (indexSum b y s).toNat = (y.toNat + v) % 2 ^ n + (y.toNat + v) / 2 ^ n ∧ (indexSum b y s).toNat < 2 ^ n ∧
    (indexSum b y s = 0 ↔ y = 0 ∧ (b = 0#3 ∨ v = 0))) ∧
  endAround 15 (0o77777 + 0o1) = 1 ∧ endAround 17 (0o77777 + 0o300001) = 1

/-- Relative addresses become absolute by RIR, LL or MSR; which index set and width is active; when an address is inside. In every
state with no newly loaded IFR waiting: the operand address is ybar plus the relative index modulo 2^17, with no end-around
carry; the index is MSR * 2^15 with RIR inactive (D10), LL * 64 with IFR active, bit 27 set and b at least 4, else RIR.IV *
64. The worker set is active iff IFR is active with bit 25 set; B4 to B7 are 17 bits wide iff IFR is inactive or bit 26 is
set. An address is inside iff LL * 64 <= a <= UL * 64 + 63. A fixed address is MSR * 2^15 + n. (20_memory.md R93, 20_memory.md
R94, 20_memory.md R95, 20_memory.md R110, 10_state.md R26, 10_state.md R27, 10_state.md R41, 10_state.md R43) -/
def Obligations.AddressConversion : Prop :=
  ∀ b y s a n, s.ctl.newIfr = .settled →
    let f := s.ctl.ifr
    let ri := if s.ctl.rirActive = false then s.panel.msr.toNat * 2 ^ 15
      else if s.ctl.ifrActive = true ∧ f.getLsbD 27 = true ∧ 4 ≤ b.toNat then s.ctl.plrLL.toNat * 64 else s.ctl.rirIV.toNat * 64
    (opAddr b y s).base.toNat = ((effective b y s).toNat + ri) % 2 ^ 17 ∧ (opAddr b y s).checked = true ∧
    ((bView s).worker = true ↔ s.ctl.ifrActive = true ∧ f.getLsbD 25 = true) ∧
    ((bView s).wide = true ↔ s.ctl.ifrActive = false ∨ f.getLsbD 26 = true) ∧
    (inside s a = true ↔ s.ctl.plrLL.toNat * 64 ≤ a.toNat ∧ a.toNat ≤ s.ctl.plrUL.toNat * 64 + 63) ∧
    (fixedAddr s n).toNat = s.panel.msr.toNat * 2 ^ 15 + n.toNat

/-- Decoding the word of every instruction gives it back, and encoding what a word decodes to gives the word. For every
instruction, with every operand at every value its fields admit, decode of encode is the instruction; for every 30-bit word,
encode of decode is the word. So no bit of a word is dropped, no two instructions share a word, and no word is without an
instruction. (30_encoding.md R141, 30_encoding.md R142, 30_encoding.md R143, 30_encoding.md R144, 30_encoding.md R186) -/
def Obligations.DecodeAndEncodeAgree : Prop :=
  (∀ i : Instr, decode (encode i) = i) ∧ (∀ w : Word, encode (decode w) = w)

/-- Every step keeps the storage in its canonical form and within the installed words. For every state whose storage list has
rising addresses, lists no word that reads as an unlisted one, and lists fitted words only, if the step answers a next state
then that state's storage is such a list too. The canonical form is the model's (logs 2 and 4); that only fitted words are
ever written is R83. (20_memory.md R80, 20_memory.md R83) -/
def Obligations.StorageInvIsKept : Prop :=
  ∀ s t, StorageInv s → step s = .next t → StorageInv t

/-- Every step keeps channels that are not fitted idle, requests a set, and the registers in use on fitted channels. For every
state in which no request is pending twice, every pending request and every active buffer belongs to a fitted channel, and
IASR and PECSR, where in use, name a fitted channel, every next state of the step is such a state. (A request for an unfitted
channel would be a channel register out of range, U12.) (10_state.md R46, 10_state.md R56, 10_state.md R57, 49_io.md R460) -/
def Obligations.ChannelInvIsKept : Prop :=
  ∀ s t, ChannelInv s → step s = .next t → ChannelInv t

/-- Every step keeps: an active or newly loaded IFR is not held, and an open entrance is in the executive state. For every state
in which the IFR is not held while active or newly loaded, and in which, while the instruction at an interrupt's fixed
location has not finished, the IFR is held and inactive, the RIR inactive and the lockout set, every next state of the step is
such a state: only 7761 can leave the executive state (R572). (10_state.md R37, 10_state.md R41, 60_exceptions.md R541,
60_exceptions.md R542) -/
def Obligations.EntryInvIsKept : Prop :=
  ∀ s t, EntryInv s → step s = .next t → EntryInv t

/-- The machine after reset is stopped, in the executive state, with nothing active, and meets the three invariants. State.reset
has IFR and RIR inactive, no hold, no delayed activation, no Repeat to run or resume, the lockout and its timer clear, no
request pending, no channel register in use, every channel flag clear and the CPU stopped; it satisfies the storage, channel
and entry invariants. (That it says more, by log 1, is the model's choice and is not stated here.) (70_reset_and_hazards.md
R600, 70_reset_and_hazards.md R601) -/
def Obligations.ResetIsMasterCleared : Prop :=
  let s := State.reset
  s.ctl.ifrActive = false ∧ s.ctl.rirActive = false ∧ s.ctl.ifrHold = false ∧ s.ctl.newIfr = .settled ∧ s.ctl.reinit = false ∧
  s.rep.active = false ∧ s.lockout = { locked := false, bySil := false, silTimer := 0 } ∧ s.pending = [] ∧ s.sel.useIasr = false ∧
  s.sel.usePecsr = false ∧ s.run = false ∧
  (∀ c : Fin 24, (s.chans[c]).inActive = false ∧ (s.chans[c]).outActive = false ∧ (s.chans[c]).inMon = false ∧
    (s.chans[c]).outMon = false ∧ (s.chans[c]).efActive = false ∧ (s.chans[c]).outDone = false) ∧
  StorageInv s ∧ ChannelInv s ∧ EntryInv s

/-- Master clear of a stopped CPU clears what R600 lists and leaves storage; a running CPU ignores it (log 49). With a master
clear next in the script, a stopped CPU has after the step IFR and RIR inactive, no hold, no delayed activation, no Repeat,
lockout and timer clear, nothing pending, no channel register in use, every channel flag clear, RUN stopped, storage and
switches unchanged; nothing is said of the registers (U18). A running CPU only drops the event, which is the model's choice
(log 49). (70_reset_and_hazards.md R600, 70_reset_and_hazards.md R601) -/
def Obligations.MasterClearResets : Prop :=
  ∀ s rest, s.inputs = .masterClear :: rest →
    (s.run = true → step s = .next (s.setInputs rest)) ∧
    (s.run = false → Answers (step s) fun t =>
      t.ctl.ifrActive = false ∧ t.ctl.rirActive = false ∧ t.ctl.ifrHold = false ∧ t.ctl.newIfr = .settled ∧ t.ctl.reinit = false ∧
      t.rep.active = false ∧ t.lockout = { locked := false, bySil := false, silTimer := 0 } ∧ t.pending = [] ∧
      t.sel.useIasr = false ∧ t.sel.usePecsr = false ∧ t.run = false ∧
      (∀ c : Fin 24, (t.chans[c]).inActive = false ∧ (t.chans[c]).outActive = false ∧ (t.chans[c]).inMon = false ∧
        (t.chans[c]).outMon = false ∧ (t.chans[c]).efActive = false ∧ (t.chans[c]).outDone = false) ∧
      SameMemory s t ∧ t.panel = s.panel ∧ t.cfg = s.cfg ∧ t.outputs = s.outputs ∧ t.inputs = rest)

/-- A step from the executive state leaves the IFR inactive unless a 7761 has been executed just before. For every state with the
IFR inactive and no newly loaded IFR waiting, every next state of the step has the IFR inactive; and if in that next state a
newly loaded IFR waits, then the CPU runs, and the word the step may run is a 7761: the one at the fixed location or at the
Execute Remote's target, where the state is to fetch there; else the repeated word, where one has been fetched; else the word
at P, or what it held before the last instruction overwrote it (U4). So only 7761 leads from executive to worker.
(60_exceptions.md R572, 10_state.md R41) -/
def Obligations.ExecutiveStateLeftOnlyBy7761 : Prop :=
  ∀ s t, s.ctl.ifrActive = false → s.ctl.newIfr = .settled → step s = .next t →
    t.ctl.ifrActive = false ∧ (t.ctl.newIfr ≠ .settled →
      s.run = true ∧ ∃ (w : Word) (b : BitVec 3) (y : BitVec 15), decode w = .enterIfrRir b y ∧ mayRun s w)

/-- Eight words written out from the encoding tables decode to their instructions. The words 2003001000, 1110000005, 6410003000,
1303012345, 7407034567, 7773027654, 7747000100 and 7010000003 (octal), each an example of the spec or composed from its field
tables, decode to ADD_A, ENTER_A, RETURN_JUMP_ARITHMETIC, SEND_EXTERNAL_FUNCTION, ACTIVATE_OUTPUT, ENTER_CSR, ENTER_B7_JUMP
and REPEAT with the fields shown. (30_encoding.md R141, 30_encoding.md R142, 30_encoding.md R143, 30_encoding.md R186) -/
def Obligations.DecodeWordsFromTheTables : Prop :=
  decode 0o2003001000#30 = .addA 0#3 3#3 0#3 0o1000#15 ∧ decode 0o1110000005#30 = .enterA 1#3 0#3 0#3 0o5#15 ∧
  decode 0o6410003000#30 = .returnJumpArithmetic 1#3 0#3 0#3 0o3000#15 ∧
  decode 0o1303012345#30 = .sendExternalFunction 0#4 3#2 0#3 0o12345#15 ∧
  decode 0o7407034567#30 = .activateOutput 1#4 3#2 0#3 0o34567#15 ∧ decode 0o7773027654#30 = .enterCsr 0#3 0o27654#15 ∧
  decode 0o7747000100#30 = .enterB7Jump 0#3 0o100#15 ∧ decode 0o7010000003#30 = .repeatInstr 1#3 0#3 0#3 0o3#15
end

