-- ==== Sys2Proof/Laws/State.lean ====
section
/-! SUPPORT. What each setter of the state leaves and what it writes: one lemma per field per setter. -/

namespace Sys2Proof.Machine

@[simp] theorem State.setA_a (s : State) (v : Word) : (s.setA v).a = v := rfl
@[simp] theorem State.setA_q (s : State) (v : Word) : (s.setA v).q = s.q := rfl
@[simp] theorem State.setA_bExec (s : State) (v : Word) : (s.setA v).bExec = s.bExec := rfl
@[simp] theorem State.setA_bWork (s : State) (v : Word) : (s.setA v).bWork = s.bWork := rfl
@[simp] theorem State.setA_pc (s : State) (v : Word) : (s.setA v).pc = s.pc := rfl
@[simp] theorem State.setA_ctl (s : State) (v : Word) : (s.setA v).ctl = s.ctl := rfl
@[simp] theorem State.setA_sel (s : State) (v : Word) : (s.setA v).sel = s.sel := rfl
@[simp] theorem State.setA_panel (s : State) (v : Word) : (s.setA v).panel = s.panel := rfl
@[simp] theorem State.setA_run (s : State) (v : Word) : (s.setA v).run = s.run := rfl
@[simp] theorem State.setA_lockout (s : State) (v : Word) : (s.setA v).lockout = s.lockout := rfl
@[simp] theorem State.setA_pending (s : State) (v : Word) : (s.setA v).pending = s.pending := rfl
@[simp] theorem State.setA_rep (s : State) (v : Word) : (s.setA v).rep = s.rep := rfl
@[simp] theorem State.setA_chans (s : State) (v : Word) : (s.setA v).chans = s.chans := rfl
@[simp] theorem State.setA_clk (s : State) (v : Word) : (s.setA v).clk = s.clk := rfl
@[simp] theorem State.setA_mem (s : State) (v : Word) : (s.setA v).mem = s.mem := rfl
@[simp] theorem State.setA_parity (s : State) (v : Word) : (s.setA v).parity = s.parity := rfl
@[simp] theorem State.setA_overlap (s : State) (v : Word) : (s.setA v).overlap = s.overlap := rfl
@[simp] theorem State.setA_fetch (s : State) (v : Word) : (s.setA v).fetch = s.fetch := rfl
@[simp] theorem State.setA_entryOpen (s : State) (v : Word) : (s.setA v).entryOpen = s.entryOpen := rfl
@[simp] theorem State.setA_outputs (s : State) (v : Word) : (s.setA v).outputs = s.outputs := rfl
@[simp] theorem State.setA_inputs (s : State) (v : Word) : (s.setA v).inputs = s.inputs := rfl
@[simp] theorem State.setA_cfg (s : State) (v : Word) : (s.setA v).cfg = s.cfg := rfl
@[simp] theorem State.setA_free (s : State) (v : Word) : (s.setA v).free = s.free := rfl

@[simp] theorem State.setQ_a (s : State) (v : Word) : (s.setQ v).a = s.a := rfl
@[simp] theorem State.setQ_q (s : State) (v : Word) : (s.setQ v).q = v := rfl
@[simp] theorem State.setQ_bExec (s : State) (v : Word) : (s.setQ v).bExec = s.bExec := rfl
@[simp] theorem State.setQ_bWork (s : State) (v : Word) : (s.setQ v).bWork = s.bWork := rfl
@[simp] theorem State.setQ_pc (s : State) (v : Word) : (s.setQ v).pc = s.pc := rfl
@[simp] theorem State.setQ_ctl (s : State) (v : Word) : (s.setQ v).ctl = s.ctl := rfl
@[simp] theorem State.setQ_sel (s : State) (v : Word) : (s.setQ v).sel = s.sel := rfl
@[simp] theorem State.setQ_panel (s : State) (v : Word) : (s.setQ v).panel = s.panel := rfl
@[simp] theorem State.setQ_run (s : State) (v : Word) : (s.setQ v).run = s.run := rfl
@[simp] theorem State.setQ_lockout (s : State) (v : Word) : (s.setQ v).lockout = s.lockout := rfl
@[simp] theorem State.setQ_pending (s : State) (v : Word) : (s.setQ v).pending = s.pending := rfl
@[simp] theorem State.setQ_rep (s : State) (v : Word) : (s.setQ v).rep = s.rep := rfl
@[simp] theorem State.setQ_chans (s : State) (v : Word) : (s.setQ v).chans = s.chans := rfl
@[simp] theorem State.setQ_clk (s : State) (v : Word) : (s.setQ v).clk = s.clk := rfl
@[simp] theorem State.setQ_mem (s : State) (v : Word) : (s.setQ v).mem = s.mem := rfl
@[simp] theorem State.setQ_parity (s : State) (v : Word) : (s.setQ v).parity = s.parity := rfl
@[simp] theorem State.setQ_overlap (s : State) (v : Word) : (s.setQ v).overlap = s.overlap := rfl
@[simp] theorem State.setQ_fetch (s : State) (v : Word) : (s.setQ v).fetch = s.fetch := rfl
@[simp] theorem State.setQ_entryOpen (s : State) (v : Word) : (s.setQ v).entryOpen = s.entryOpen := rfl
@[simp] theorem State.setQ_outputs (s : State) (v : Word) : (s.setQ v).outputs = s.outputs := rfl
@[simp] theorem State.setQ_inputs (s : State) (v : Word) : (s.setQ v).inputs = s.inputs := rfl
@[simp] theorem State.setQ_cfg (s : State) (v : Word) : (s.setQ v).cfg = s.cfg := rfl
@[simp] theorem State.setQ_free (s : State) (v : Word) : (s.setQ v).free = s.free := rfl

@[simp] theorem State.setBExec_a (s : State) (v : BSet) : (s.setBExec v).a = s.a := rfl
@[simp] theorem State.setBExec_q (s : State) (v : BSet) : (s.setBExec v).q = s.q := rfl
@[simp] theorem State.setBExec_bExec (s : State) (v : BSet) : (s.setBExec v).bExec = v := rfl
@[simp] theorem State.setBExec_bWork (s : State) (v : BSet) : (s.setBExec v).bWork = s.bWork := rfl
@[simp] theorem State.setBExec_pc (s : State) (v : BSet) : (s.setBExec v).pc = s.pc := rfl
@[simp] theorem State.setBExec_ctl (s : State) (v : BSet) : (s.setBExec v).ctl = s.ctl := rfl
@[simp] theorem State.setBExec_sel (s : State) (v : BSet) : (s.setBExec v).sel = s.sel := rfl
@[simp] theorem State.setBExec_panel (s : State) (v : BSet) : (s.setBExec v).panel = s.panel := rfl
@[simp] theorem State.setBExec_run (s : State) (v : BSet) : (s.setBExec v).run = s.run := rfl
@[simp] theorem State.setBExec_lockout (s : State) (v : BSet) : (s.setBExec v).lockout = s.lockout := rfl
@[simp] theorem State.setBExec_pending (s : State) (v : BSet) : (s.setBExec v).pending = s.pending := rfl
@[simp] theorem State.setBExec_rep (s : State) (v : BSet) : (s.setBExec v).rep = s.rep := rfl
@[simp] theorem State.setBExec_chans (s : State) (v : BSet) : (s.setBExec v).chans = s.chans := rfl
@[simp] theorem State.setBExec_clk (s : State) (v : BSet) : (s.setBExec v).clk = s.clk := rfl
@[simp] theorem State.setBExec_mem (s : State) (v : BSet) : (s.setBExec v).mem = s.mem := rfl
@[simp] theorem State.setBExec_parity (s : State) (v : BSet) : (s.setBExec v).parity = s.parity := rfl
@[simp] theorem State.setBExec_overlap (s : State) (v : BSet) : (s.setBExec v).overlap = s.overlap := rfl
@[simp] theorem State.setBExec_fetch (s : State) (v : BSet) : (s.setBExec v).fetch = s.fetch := rfl
@[simp] theorem State.setBExec_entryOpen (s : State) (v : BSet) : (s.setBExec v).entryOpen = s.entryOpen := rfl
@[simp] theorem State.setBExec_outputs (s : State) (v : BSet) : (s.setBExec v).outputs = s.outputs := rfl
@[simp] theorem State.setBExec_inputs (s : State) (v : BSet) : (s.setBExec v).inputs = s.inputs := rfl
@[simp] theorem State.setBExec_cfg (s : State) (v : BSet) : (s.setBExec v).cfg = s.cfg := rfl
@[simp] theorem State.setBExec_free (s : State) (v : BSet) : (s.setBExec v).free = s.free := rfl

@[simp] theorem State.setBWork_a (s : State) (v : BSet) : (s.setBWork v).a = s.a := rfl
@[simp] theorem State.setBWork_q (s : State) (v : BSet) : (s.setBWork v).q = s.q := rfl
@[simp] theorem State.setBWork_bExec (s : State) (v : BSet) : (s.setBWork v).bExec = s.bExec := rfl
@[simp] theorem State.setBWork_bWork (s : State) (v : BSet) : (s.setBWork v).bWork = v := rfl
@[simp] theorem State.setBWork_pc (s : State) (v : BSet) : (s.setBWork v).pc = s.pc := rfl
@[simp] theorem State.setBWork_ctl (s : State) (v : BSet) : (s.setBWork v).ctl = s.ctl := rfl
@[simp] theorem State.setBWork_sel (s : State) (v : BSet) : (s.setBWork v).sel = s.sel := rfl
@[simp] theorem State.setBWork_panel (s : State) (v : BSet) : (s.setBWork v).panel = s.panel := rfl
@[simp] theorem State.setBWork_run (s : State) (v : BSet) : (s.setBWork v).run = s.run := rfl
@[simp] theorem State.setBWork_lockout (s : State) (v : BSet) : (s.setBWork v).lockout = s.lockout := rfl
@[simp] theorem State.setBWork_pending (s : State) (v : BSet) : (s.setBWork v).pending = s.pending := rfl
@[simp] theorem State.setBWork_rep (s : State) (v : BSet) : (s.setBWork v).rep = s.rep := rfl
@[simp] theorem State.setBWork_chans (s : State) (v : BSet) : (s.setBWork v).chans = s.chans := rfl
@[simp] theorem State.setBWork_clk (s : State) (v : BSet) : (s.setBWork v).clk = s.clk := rfl
@[simp] theorem State.setBWork_mem (s : State) (v : BSet) : (s.setBWork v).mem = s.mem := rfl
@[simp] theorem State.setBWork_parity (s : State) (v : BSet) : (s.setBWork v).parity = s.parity := rfl
@[simp] theorem State.setBWork_overlap (s : State) (v : BSet) : (s.setBWork v).overlap = s.overlap := rfl
@[simp] theorem State.setBWork_fetch (s : State) (v : BSet) : (s.setBWork v).fetch = s.fetch := rfl
@[simp] theorem State.setBWork_entryOpen (s : State) (v : BSet) : (s.setBWork v).entryOpen = s.entryOpen := rfl
@[simp] theorem State.setBWork_outputs (s : State) (v : BSet) : (s.setBWork v).outputs = s.outputs := rfl
@[simp] theorem State.setBWork_inputs (s : State) (v : BSet) : (s.setBWork v).inputs = s.inputs := rfl
@[simp] theorem State.setBWork_cfg (s : State) (v : BSet) : (s.setBWork v).cfg = s.cfg := rfl
@[simp] theorem State.setBWork_free (s : State) (v : BSet) : (s.setBWork v).free = s.free := rfl

@[simp] theorem State.setPc_a (s : State) (v : Addr) : (s.setPc v).a = s.a := rfl
@[simp] theorem State.setPc_q (s : State) (v : Addr) : (s.setPc v).q = s.q := rfl
@[simp] theorem State.setPc_bExec (s : State) (v : Addr) : (s.setPc v).bExec = s.bExec := rfl
@[simp] theorem State.setPc_bWork (s : State) (v : Addr) : (s.setPc v).bWork = s.bWork := rfl
@[simp] theorem State.setPc_pc (s : State) (v : Addr) : (s.setPc v).pc = v := rfl
@[simp] theorem State.setPc_ctl (s : State) (v : Addr) : (s.setPc v).ctl = s.ctl := rfl
@[simp] theorem State.setPc_sel (s : State) (v : Addr) : (s.setPc v).sel = s.sel := rfl
@[simp] theorem State.setPc_panel (s : State) (v : Addr) : (s.setPc v).panel = s.panel := rfl
@[simp] theorem State.setPc_run (s : State) (v : Addr) : (s.setPc v).run = s.run := rfl
@[simp] theorem State.setPc_lockout (s : State) (v : Addr) : (s.setPc v).lockout = s.lockout := rfl
@[simp] theorem State.setPc_pending (s : State) (v : Addr) : (s.setPc v).pending = s.pending := rfl
@[simp] theorem State.setPc_rep (s : State) (v : Addr) : (s.setPc v).rep = s.rep := rfl
@[simp] theorem State.setPc_chans (s : State) (v : Addr) : (s.setPc v).chans = s.chans := rfl
@[simp] theorem State.setPc_clk (s : State) (v : Addr) : (s.setPc v).clk = s.clk := rfl
@[simp] theorem State.setPc_mem (s : State) (v : Addr) : (s.setPc v).mem = s.mem := rfl
@[simp] theorem State.setPc_parity (s : State) (v : Addr) : (s.setPc v).parity = s.parity := rfl
@[simp] theorem State.setPc_overlap (s : State) (v : Addr) : (s.setPc v).overlap = s.overlap := rfl
@[simp] theorem State.setPc_fetch (s : State) (v : Addr) : (s.setPc v).fetch = s.fetch := rfl
@[simp] theorem State.setPc_entryOpen (s : State) (v : Addr) : (s.setPc v).entryOpen = s.entryOpen := rfl
@[simp] theorem State.setPc_outputs (s : State) (v : Addr) : (s.setPc v).outputs = s.outputs := rfl
@[simp] theorem State.setPc_inputs (s : State) (v : Addr) : (s.setPc v).inputs = s.inputs := rfl
@[simp] theorem State.setPc_cfg (s : State) (v : Addr) : (s.setPc v).cfg = s.cfg := rfl
@[simp] theorem State.setPc_free (s : State) (v : Addr) : (s.setPc v).free = s.free := rfl

@[simp] theorem State.setCtl_a (s : State) (v : Control) : (s.setCtl v).a = s.a := rfl
@[simp] theorem State.setCtl_q (s : State) (v : Control) : (s.setCtl v).q = s.q := rfl
@[simp] theorem State.setCtl_bExec (s : State) (v : Control) : (s.setCtl v).bExec = s.bExec := rfl
@[simp] theorem State.setCtl_bWork (s : State) (v : Control) : (s.setCtl v).bWork = s.bWork := rfl
@[simp] theorem State.setCtl_pc (s : State) (v : Control) : (s.setCtl v).pc = s.pc := rfl
@[simp] theorem State.setCtl_ctl (s : State) (v : Control) : (s.setCtl v).ctl = v := rfl
@[simp] theorem State.setCtl_sel (s : State) (v : Control) : (s.setCtl v).sel = s.sel := rfl
@[simp] theorem State.setCtl_panel (s : State) (v : Control) : (s.setCtl v).panel = s.panel := rfl
@[simp] theorem State.setCtl_run (s : State) (v : Control) : (s.setCtl v).run = s.run := rfl
@[simp] theorem State.setCtl_lockout (s : State) (v : Control) : (s.setCtl v).lockout = s.lockout := rfl
@[simp] theorem State.setCtl_pending (s : State) (v : Control) : (s.setCtl v).pending = s.pending := rfl
@[simp] theorem State.setCtl_rep (s : State) (v : Control) : (s.setCtl v).rep = s.rep := rfl
@[simp] theorem State.setCtl_chans (s : State) (v : Control) : (s.setCtl v).chans = s.chans := rfl
@[simp] theorem State.setCtl_clk (s : State) (v : Control) : (s.setCtl v).clk = s.clk := rfl
@[simp] theorem State.setCtl_mem (s : State) (v : Control) : (s.setCtl v).mem = s.mem := rfl
@[simp] theorem State.setCtl_parity (s : State) (v : Control) : (s.setCtl v).parity = s.parity := rfl
@[simp] theorem State.setCtl_overlap (s : State) (v : Control) : (s.setCtl v).overlap = s.overlap := rfl
@[simp] theorem State.setCtl_fetch (s : State) (v : Control) : (s.setCtl v).fetch = s.fetch := rfl
@[simp] theorem State.setCtl_entryOpen (s : State) (v : Control) : (s.setCtl v).entryOpen = s.entryOpen := rfl
@[simp] theorem State.setCtl_outputs (s : State) (v : Control) : (s.setCtl v).outputs = s.outputs := rfl
@[simp] theorem State.setCtl_inputs (s : State) (v : Control) : (s.setCtl v).inputs = s.inputs := rfl
@[simp] theorem State.setCtl_cfg (s : State) (v : Control) : (s.setCtl v).cfg = s.cfg := rfl
@[simp] theorem State.setCtl_free (s : State) (v : Control) : (s.setCtl v).free = s.free := rfl

@[simp] theorem State.setSel_a (s : State) (v : ChannelSelect) : (s.setSel v).a = s.a := rfl
@[simp] theorem State.setSel_q (s : State) (v : ChannelSelect) : (s.setSel v).q = s.q := rfl
@[simp] theorem State.setSel_bExec (s : State) (v : ChannelSelect) : (s.setSel v).bExec = s.bExec := rfl
@[simp] theorem State.setSel_bWork (s : State) (v : ChannelSelect) : (s.setSel v).bWork = s.bWork := rfl
@[simp] theorem State.setSel_pc (s : State) (v : ChannelSelect) : (s.setSel v).pc = s.pc := rfl
@[simp] theorem State.setSel_ctl (s : State) (v : ChannelSelect) : (s.setSel v).ctl = s.ctl := rfl
@[simp] theorem State.setSel_sel (s : State) (v : ChannelSelect) : (s.setSel v).sel = v := rfl
@[simp] theorem State.setSel_panel (s : State) (v : ChannelSelect) : (s.setSel v).panel = s.panel := rfl
@[simp] theorem State.setSel_run (s : State) (v : ChannelSelect) : (s.setSel v).run = s.run := rfl
@[simp] theorem State.setSel_lockout (s : State) (v : ChannelSelect) : (s.setSel v).lockout = s.lockout := rfl
@[simp] theorem State.setSel_pending (s : State) (v : ChannelSelect) : (s.setSel v).pending = s.pending := rfl
@[simp] theorem State.setSel_rep (s : State) (v : ChannelSelect) : (s.setSel v).rep = s.rep := rfl
@[simp] theorem State.setSel_chans (s : State) (v : ChannelSelect) : (s.setSel v).chans = s.chans := rfl
@[simp] theorem State.setSel_clk (s : State) (v : ChannelSelect) : (s.setSel v).clk = s.clk := rfl
@[simp] theorem State.setSel_mem (s : State) (v : ChannelSelect) : (s.setSel v).mem = s.mem := rfl
@[simp] theorem State.setSel_parity (s : State) (v : ChannelSelect) : (s.setSel v).parity = s.parity := rfl
@[simp] theorem State.setSel_overlap (s : State) (v : ChannelSelect) : (s.setSel v).overlap = s.overlap := rfl
@[simp] theorem State.setSel_fetch (s : State) (v : ChannelSelect) : (s.setSel v).fetch = s.fetch := rfl
@[simp] theorem State.setSel_entryOpen (s : State) (v : ChannelSelect) : (s.setSel v).entryOpen = s.entryOpen := rfl
@[simp] theorem State.setSel_outputs (s : State) (v : ChannelSelect) : (s.setSel v).outputs = s.outputs := rfl
@[simp] theorem State.setSel_inputs (s : State) (v : ChannelSelect) : (s.setSel v).inputs = s.inputs := rfl
@[simp] theorem State.setSel_cfg (s : State) (v : ChannelSelect) : (s.setSel v).cfg = s.cfg := rfl
@[simp] theorem State.setSel_free (s : State) (v : ChannelSelect) : (s.setSel v).free = s.free := rfl

@[simp] theorem State.setPanel_a (s : State) (v : Panel) : (s.setPanel v).a = s.a := rfl
@[simp] theorem State.setPanel_q (s : State) (v : Panel) : (s.setPanel v).q = s.q := rfl
@[simp] theorem State.setPanel_bExec (s : State) (v : Panel) : (s.setPanel v).bExec = s.bExec := rfl
@[simp] theorem State.setPanel_bWork (s : State) (v : Panel) : (s.setPanel v).bWork = s.bWork := rfl
@[simp] theorem State.setPanel_pc (s : State) (v : Panel) : (s.setPanel v).pc = s.pc := rfl
@[simp] theorem State.setPanel_ctl (s : State) (v : Panel) : (s.setPanel v).ctl = s.ctl := rfl
@[simp] theorem State.setPanel_sel (s : State) (v : Panel) : (s.setPanel v).sel = s.sel := rfl
@[simp] theorem State.setPanel_panel (s : State) (v : Panel) : (s.setPanel v).panel = v := rfl
@[simp] theorem State.setPanel_run (s : State) (v : Panel) : (s.setPanel v).run = s.run := rfl
@[simp] theorem State.setPanel_lockout (s : State) (v : Panel) : (s.setPanel v).lockout = s.lockout := rfl
@[simp] theorem State.setPanel_pending (s : State) (v : Panel) : (s.setPanel v).pending = s.pending := rfl
@[simp] theorem State.setPanel_rep (s : State) (v : Panel) : (s.setPanel v).rep = s.rep := rfl
@[simp] theorem State.setPanel_chans (s : State) (v : Panel) : (s.setPanel v).chans = s.chans := rfl
@[simp] theorem State.setPanel_clk (s : State) (v : Panel) : (s.setPanel v).clk = s.clk := rfl
@[simp] theorem State.setPanel_mem (s : State) (v : Panel) : (s.setPanel v).mem = s.mem := rfl
@[simp] theorem State.setPanel_parity (s : State) (v : Panel) : (s.setPanel v).parity = s.parity := rfl
@[simp] theorem State.setPanel_overlap (s : State) (v : Panel) : (s.setPanel v).overlap = s.overlap := rfl
@[simp] theorem State.setPanel_fetch (s : State) (v : Panel) : (s.setPanel v).fetch = s.fetch := rfl
@[simp] theorem State.setPanel_entryOpen (s : State) (v : Panel) : (s.setPanel v).entryOpen = s.entryOpen := rfl
@[simp] theorem State.setPanel_outputs (s : State) (v : Panel) : (s.setPanel v).outputs = s.outputs := rfl
@[simp] theorem State.setPanel_inputs (s : State) (v : Panel) : (s.setPanel v).inputs = s.inputs := rfl
@[simp] theorem State.setPanel_cfg (s : State) (v : Panel) : (s.setPanel v).cfg = s.cfg := rfl
@[simp] theorem State.setPanel_free (s : State) (v : Panel) : (s.setPanel v).free = s.free := rfl

@[simp] theorem State.setRun_a (s : State) (v : Bool) : (s.setRun v).a = s.a := rfl
@[simp] theorem State.setRun_q (s : State) (v : Bool) : (s.setRun v).q = s.q := rfl
@[simp] theorem State.setRun_bExec (s : State) (v : Bool) : (s.setRun v).bExec = s.bExec := rfl
@[simp] theorem State.setRun_bWork (s : State) (v : Bool) : (s.setRun v).bWork = s.bWork := rfl
@[simp] theorem State.setRun_pc (s : State) (v : Bool) : (s.setRun v).pc = s.pc := rfl
@[simp] theorem State.setRun_ctl (s : State) (v : Bool) : (s.setRun v).ctl = s.ctl := rfl
@[simp] theorem State.setRun_sel (s : State) (v : Bool) : (s.setRun v).sel = s.sel := rfl
@[simp] theorem State.setRun_panel (s : State) (v : Bool) : (s.setRun v).panel = s.panel := rfl
@[simp] theorem State.setRun_run (s : State) (v : Bool) : (s.setRun v).run = v := rfl
@[simp] theorem State.setRun_lockout (s : State) (v : Bool) : (s.setRun v).lockout = s.lockout := rfl
@[simp] theorem State.setRun_pending (s : State) (v : Bool) : (s.setRun v).pending = s.pending := rfl
@[simp] theorem State.setRun_rep (s : State) (v : Bool) : (s.setRun v).rep = s.rep := rfl
@[simp] theorem State.setRun_chans (s : State) (v : Bool) : (s.setRun v).chans = s.chans := rfl
@[simp] theorem State.setRun_clk (s : State) (v : Bool) : (s.setRun v).clk = s.clk := rfl
@[simp] theorem State.setRun_mem (s : State) (v : Bool) : (s.setRun v).mem = s.mem := rfl
@[simp] theorem State.setRun_parity (s : State) (v : Bool) : (s.setRun v).parity = s.parity := rfl
@[simp] theorem State.setRun_overlap (s : State) (v : Bool) : (s.setRun v).overlap = s.overlap := rfl
@[simp] theorem State.setRun_fetch (s : State) (v : Bool) : (s.setRun v).fetch = s.fetch := rfl
@[simp] theorem State.setRun_entryOpen (s : State) (v : Bool) : (s.setRun v).entryOpen = s.entryOpen := rfl
@[simp] theorem State.setRun_outputs (s : State) (v : Bool) : (s.setRun v).outputs = s.outputs := rfl
@[simp] theorem State.setRun_inputs (s : State) (v : Bool) : (s.setRun v).inputs = s.inputs := rfl
@[simp] theorem State.setRun_cfg (s : State) (v : Bool) : (s.setRun v).cfg = s.cfg := rfl
@[simp] theorem State.setRun_free (s : State) (v : Bool) : (s.setRun v).free = s.free := rfl

@[simp] theorem State.setLockout_a (s : State) (v : Lockout) : (s.setLockout v).a = s.a := rfl
@[simp] theorem State.setLockout_q (s : State) (v : Lockout) : (s.setLockout v).q = s.q := rfl
@[simp] theorem State.setLockout_bExec (s : State) (v : Lockout) : (s.setLockout v).bExec = s.bExec := rfl
@[simp] theorem State.setLockout_bWork (s : State) (v : Lockout) : (s.setLockout v).bWork = s.bWork := rfl
@[simp] theorem State.setLockout_pc (s : State) (v : Lockout) : (s.setLockout v).pc = s.pc := rfl
@[simp] theorem State.setLockout_ctl (s : State) (v : Lockout) : (s.setLockout v).ctl = s.ctl := rfl
@[simp] theorem State.setLockout_sel (s : State) (v : Lockout) : (s.setLockout v).sel = s.sel := rfl
@[simp] theorem State.setLockout_panel (s : State) (v : Lockout) : (s.setLockout v).panel = s.panel := rfl
@[simp] theorem State.setLockout_run (s : State) (v : Lockout) : (s.setLockout v).run = s.run := rfl
@[simp] theorem State.setLockout_lockout (s : State) (v : Lockout) : (s.setLockout v).lockout = v := rfl
@[simp] theorem State.setLockout_pending (s : State) (v : Lockout) : (s.setLockout v).pending = s.pending := rfl
@[simp] theorem State.setLockout_rep (s : State) (v : Lockout) : (s.setLockout v).rep = s.rep := rfl
@[simp] theorem State.setLockout_chans (s : State) (v : Lockout) : (s.setLockout v).chans = s.chans := rfl
@[simp] theorem State.setLockout_clk (s : State) (v : Lockout) : (s.setLockout v).clk = s.clk := rfl
@[simp] theorem State.setLockout_mem (s : State) (v : Lockout) : (s.setLockout v).mem = s.mem := rfl
@[simp] theorem State.setLockout_parity (s : State) (v : Lockout) : (s.setLockout v).parity = s.parity := rfl
@[simp] theorem State.setLockout_overlap (s : State) (v : Lockout) : (s.setLockout v).overlap = s.overlap := rfl
@[simp] theorem State.setLockout_fetch (s : State) (v : Lockout) : (s.setLockout v).fetch = s.fetch := rfl
@[simp] theorem State.setLockout_entryOpen (s : State) (v : Lockout) : (s.setLockout v).entryOpen = s.entryOpen := rfl
@[simp] theorem State.setLockout_outputs (s : State) (v : Lockout) : (s.setLockout v).outputs = s.outputs := rfl
@[simp] theorem State.setLockout_inputs (s : State) (v : Lockout) : (s.setLockout v).inputs = s.inputs := rfl
@[simp] theorem State.setLockout_cfg (s : State) (v : Lockout) : (s.setLockout v).cfg = s.cfg := rfl
@[simp] theorem State.setLockout_free (s : State) (v : Lockout) : (s.setLockout v).free = s.free := rfl

@[simp] theorem State.setPending_a (s : State) (v : List CondInt) : (s.setPending v).a = s.a := rfl
@[simp] theorem State.setPending_q (s : State) (v : List CondInt) : (s.setPending v).q = s.q := rfl
@[simp] theorem State.setPending_bExec (s : State) (v : List CondInt) : (s.setPending v).bExec = s.bExec := rfl
@[simp] theorem State.setPending_bWork (s : State) (v : List CondInt) : (s.setPending v).bWork = s.bWork := rfl
@[simp] theorem State.setPending_pc (s : State) (v : List CondInt) : (s.setPending v).pc = s.pc := rfl
@[simp] theorem State.setPending_ctl (s : State) (v : List CondInt) : (s.setPending v).ctl = s.ctl := rfl
@[simp] theorem State.setPending_sel (s : State) (v : List CondInt) : (s.setPending v).sel = s.sel := rfl
@[simp] theorem State.setPending_panel (s : State) (v : List CondInt) : (s.setPending v).panel = s.panel := rfl
@[simp] theorem State.setPending_run (s : State) (v : List CondInt) : (s.setPending v).run = s.run := rfl
@[simp] theorem State.setPending_lockout (s : State) (v : List CondInt) : (s.setPending v).lockout = s.lockout := rfl
@[simp] theorem State.setPending_pending (s : State) (v : List CondInt) : (s.setPending v).pending = v := rfl
@[simp] theorem State.setPending_rep (s : State) (v : List CondInt) : (s.setPending v).rep = s.rep := rfl
@[simp] theorem State.setPending_chans (s : State) (v : List CondInt) : (s.setPending v).chans = s.chans := rfl
@[simp] theorem State.setPending_clk (s : State) (v : List CondInt) : (s.setPending v).clk = s.clk := rfl
@[simp] theorem State.setPending_mem (s : State) (v : List CondInt) : (s.setPending v).mem = s.mem := rfl
@[simp] theorem State.setPending_parity (s : State) (v : List CondInt) : (s.setPending v).parity = s.parity := rfl
@[simp] theorem State.setPending_overlap (s : State) (v : List CondInt) : (s.setPending v).overlap = s.overlap := rfl
@[simp] theorem State.setPending_fetch (s : State) (v : List CondInt) : (s.setPending v).fetch = s.fetch := rfl
@[simp] theorem State.setPending_entryOpen (s : State) (v : List CondInt) : (s.setPending v).entryOpen = s.entryOpen := rfl
@[simp] theorem State.setPending_outputs (s : State) (v : List CondInt) : (s.setPending v).outputs = s.outputs := rfl
@[simp] theorem State.setPending_inputs (s : State) (v : List CondInt) : (s.setPending v).inputs = s.inputs := rfl
@[simp] theorem State.setPending_cfg (s : State) (v : List CondInt) : (s.setPending v).cfg = s.cfg := rfl
@[simp] theorem State.setPending_free (s : State) (v : List CondInt) : (s.setPending v).free = s.free := rfl

@[simp] theorem State.setRep_a (s : State) (v : RepeatState) : (s.setRep v).a = s.a := rfl
@[simp] theorem State.setRep_q (s : State) (v : RepeatState) : (s.setRep v).q = s.q := rfl
@[simp] theorem State.setRep_bExec (s : State) (v : RepeatState) : (s.setRep v).bExec = s.bExec := rfl
@[simp] theorem State.setRep_bWork (s : State) (v : RepeatState) : (s.setRep v).bWork = s.bWork := rfl
@[simp] theorem State.setRep_pc (s : State) (v : RepeatState) : (s.setRep v).pc = s.pc := rfl
@[simp] theorem State.setRep_ctl (s : State) (v : RepeatState) : (s.setRep v).ctl = s.ctl := rfl
@[simp] theorem State.setRep_sel (s : State) (v : RepeatState) : (s.setRep v).sel = s.sel := rfl
@[simp] theorem State.setRep_panel (s : State) (v : RepeatState) : (s.setRep v).panel = s.panel := rfl
@[simp] theorem State.setRep_run (s : State) (v : RepeatState) : (s.setRep v).run = s.run := rfl
@[simp] theorem State.setRep_lockout (s : State) (v : RepeatState) : (s.setRep v).lockout = s.lockout := rfl
@[simp] theorem State.setRep_pending (s : State) (v : RepeatState) : (s.setRep v).pending = s.pending := rfl
@[simp] theorem State.setRep_rep (s : State) (v : RepeatState) : (s.setRep v).rep = v := rfl
@[simp] theorem State.setRep_chans (s : State) (v : RepeatState) : (s.setRep v).chans = s.chans := rfl
@[simp] theorem State.setRep_clk (s : State) (v : RepeatState) : (s.setRep v).clk = s.clk := rfl
@[simp] theorem State.setRep_mem (s : State) (v : RepeatState) : (s.setRep v).mem = s.mem := rfl
@[simp] theorem State.setRep_parity (s : State) (v : RepeatState) : (s.setRep v).parity = s.parity := rfl
@[simp] theorem State.setRep_overlap (s : State) (v : RepeatState) : (s.setRep v).overlap = s.overlap := rfl
@[simp] theorem State.setRep_fetch (s : State) (v : RepeatState) : (s.setRep v).fetch = s.fetch := rfl
@[simp] theorem State.setRep_entryOpen (s : State) (v : RepeatState) : (s.setRep v).entryOpen = s.entryOpen := rfl
@[simp] theorem State.setRep_outputs (s : State) (v : RepeatState) : (s.setRep v).outputs = s.outputs := rfl
@[simp] theorem State.setRep_inputs (s : State) (v : RepeatState) : (s.setRep v).inputs = s.inputs := rfl
@[simp] theorem State.setRep_cfg (s : State) (v : RepeatState) : (s.setRep v).cfg = s.cfg := rfl
@[simp] theorem State.setRep_free (s : State) (v : RepeatState) : (s.setRep v).free = s.free := rfl

@[simp] theorem State.setChans_a (s : State) (v : Vector Channel 24) : (s.setChans v).a = s.a := rfl
@[simp] theorem State.setChans_q (s : State) (v : Vector Channel 24) : (s.setChans v).q = s.q := rfl
@[simp] theorem State.setChans_bExec (s : State) (v : Vector Channel 24) : (s.setChans v).bExec = s.bExec := rfl
@[simp] theorem State.setChans_bWork (s : State) (v : Vector Channel 24) : (s.setChans v).bWork = s.bWork := rfl
@[simp] theorem State.setChans_pc (s : State) (v : Vector Channel 24) : (s.setChans v).pc = s.pc := rfl
@[simp] theorem State.setChans_ctl (s : State) (v : Vector Channel 24) : (s.setChans v).ctl = s.ctl := rfl
@[simp] theorem State.setChans_sel (s : State) (v : Vector Channel 24) : (s.setChans v).sel = s.sel := rfl
@[simp] theorem State.setChans_panel (s : State) (v : Vector Channel 24) : (s.setChans v).panel = s.panel := rfl
@[simp] theorem State.setChans_run (s : State) (v : Vector Channel 24) : (s.setChans v).run = s.run := rfl
@[simp] theorem State.setChans_lockout (s : State) (v : Vector Channel 24) : (s.setChans v).lockout = s.lockout := rfl
@[simp] theorem State.setChans_pending (s : State) (v : Vector Channel 24) : (s.setChans v).pending = s.pending := rfl
@[simp] theorem State.setChans_rep (s : State) (v : Vector Channel 24) : (s.setChans v).rep = s.rep := rfl
@[simp] theorem State.setChans_chans (s : State) (v : Vector Channel 24) : (s.setChans v).chans = v := rfl
@[simp] theorem State.setChans_clk (s : State) (v : Vector Channel 24) : (s.setChans v).clk = s.clk := rfl
@[simp] theorem State.setChans_mem (s : State) (v : Vector Channel 24) : (s.setChans v).mem = s.mem := rfl
@[simp] theorem State.setChans_parity (s : State) (v : Vector Channel 24) : (s.setChans v).parity = s.parity := rfl
@[simp] theorem State.setChans_overlap (s : State) (v : Vector Channel 24) : (s.setChans v).overlap = s.overlap := rfl
@[simp] theorem State.setChans_fetch (s : State) (v : Vector Channel 24) : (s.setChans v).fetch = s.fetch := rfl
@[simp] theorem State.setChans_entryOpen (s : State) (v : Vector Channel 24) : (s.setChans v).entryOpen = s.entryOpen := rfl
@[simp] theorem State.setChans_outputs (s : State) (v : Vector Channel 24) : (s.setChans v).outputs = s.outputs := rfl
@[simp] theorem State.setChans_inputs (s : State) (v : Vector Channel 24) : (s.setChans v).inputs = s.inputs := rfl
@[simp] theorem State.setChans_cfg (s : State) (v : Vector Channel 24) : (s.setChans v).cfg = s.cfg := rfl
@[simp] theorem State.setChans_free (s : State) (v : Vector Channel 24) : (s.setChans v).free = s.free := rfl

@[simp] theorem State.setClk_a (s : State) (v : Clocks) : (s.setClk v).a = s.a := rfl
@[simp] theorem State.setClk_q (s : State) (v : Clocks) : (s.setClk v).q = s.q := rfl
@[simp] theorem State.setClk_bExec (s : State) (v : Clocks) : (s.setClk v).bExec = s.bExec := rfl
@[simp] theorem State.setClk_bWork (s : State) (v : Clocks) : (s.setClk v).bWork = s.bWork := rfl
@[simp] theorem State.setClk_pc (s : State) (v : Clocks) : (s.setClk v).pc = s.pc := rfl
@[simp] theorem State.setClk_ctl (s : State) (v : Clocks) : (s.setClk v).ctl = s.ctl := rfl
@[simp] theorem State.setClk_sel (s : State) (v : Clocks) : (s.setClk v).sel = s.sel := rfl
@[simp] theorem State.setClk_panel (s : State) (v : Clocks) : (s.setClk v).panel = s.panel := rfl
@[simp] theorem State.setClk_run (s : State) (v : Clocks) : (s.setClk v).run = s.run := rfl
@[simp] theorem State.setClk_lockout (s : State) (v : Clocks) : (s.setClk v).lockout = s.lockout := rfl
@[simp] theorem State.setClk_pending (s : State) (v : Clocks) : (s.setClk v).pending = s.pending := rfl
@[simp] theorem State.setClk_rep (s : State) (v : Clocks) : (s.setClk v).rep = s.rep := rfl
@[simp] theorem State.setClk_chans (s : State) (v : Clocks) : (s.setClk v).chans = s.chans := rfl
@[simp] theorem State.setClk_clk (s : State) (v : Clocks) : (s.setClk v).clk = v := rfl
@[simp] theorem State.setClk_mem (s : State) (v : Clocks) : (s.setClk v).mem = s.mem := rfl
@[simp] theorem State.setClk_parity (s : State) (v : Clocks) : (s.setClk v).parity = s.parity := rfl
@[simp] theorem State.setClk_overlap (s : State) (v : Clocks) : (s.setClk v).overlap = s.overlap := rfl
@[simp] theorem State.setClk_fetch (s : State) (v : Clocks) : (s.setClk v).fetch = s.fetch := rfl
@[simp] theorem State.setClk_entryOpen (s : State) (v : Clocks) : (s.setClk v).entryOpen = s.entryOpen := rfl
@[simp] theorem State.setClk_outputs (s : State) (v : Clocks) : (s.setClk v).outputs = s.outputs := rfl
@[simp] theorem State.setClk_inputs (s : State) (v : Clocks) : (s.setClk v).inputs = s.inputs := rfl
@[simp] theorem State.setClk_cfg (s : State) (v : Clocks) : (s.setClk v).cfg = s.cfg := rfl
@[simp] theorem State.setClk_free (s : State) (v : Clocks) : (s.setClk v).free = s.free := rfl

@[simp] theorem State.setMem_a (s : State) (v : Memory) : (s.setMem v).a = s.a := rfl
@[simp] theorem State.setMem_q (s : State) (v : Memory) : (s.setMem v).q = s.q := rfl
@[simp] theorem State.setMem_bExec (s : State) (v : Memory) : (s.setMem v).bExec = s.bExec := rfl
@[simp] theorem State.setMem_bWork (s : State) (v : Memory) : (s.setMem v).bWork = s.bWork := rfl
@[simp] theorem State.setMem_pc (s : State) (v : Memory) : (s.setMem v).pc = s.pc := rfl
@[simp] theorem State.setMem_ctl (s : State) (v : Memory) : (s.setMem v).ctl = s.ctl := rfl
@[simp] theorem State.setMem_sel (s : State) (v : Memory) : (s.setMem v).sel = s.sel := rfl
@[simp] theorem State.setMem_panel (s : State) (v : Memory) : (s.setMem v).panel = s.panel := rfl
@[simp] theorem State.setMem_run (s : State) (v : Memory) : (s.setMem v).run = s.run := rfl
@[simp] theorem State.setMem_lockout (s : State) (v : Memory) : (s.setMem v).lockout = s.lockout := rfl
@[simp] theorem State.setMem_pending (s : State) (v : Memory) : (s.setMem v).pending = s.pending := rfl
@[simp] theorem State.setMem_rep (s : State) (v : Memory) : (s.setMem v).rep = s.rep := rfl
@[simp] theorem State.setMem_chans (s : State) (v : Memory) : (s.setMem v).chans = s.chans := rfl
@[simp] theorem State.setMem_clk (s : State) (v : Memory) : (s.setMem v).clk = s.clk := rfl
@[simp] theorem State.setMem_mem (s : State) (v : Memory) : (s.setMem v).mem = v := rfl
@[simp] theorem State.setMem_parity (s : State) (v : Memory) : (s.setMem v).parity = s.parity := rfl
@[simp] theorem State.setMem_overlap (s : State) (v : Memory) : (s.setMem v).overlap = s.overlap := rfl
@[simp] theorem State.setMem_fetch (s : State) (v : Memory) : (s.setMem v).fetch = s.fetch := rfl
@[simp] theorem State.setMem_entryOpen (s : State) (v : Memory) : (s.setMem v).entryOpen = s.entryOpen := rfl
@[simp] theorem State.setMem_outputs (s : State) (v : Memory) : (s.setMem v).outputs = s.outputs := rfl
@[simp] theorem State.setMem_inputs (s : State) (v : Memory) : (s.setMem v).inputs = s.inputs := rfl
@[simp] theorem State.setMem_cfg (s : State) (v : Memory) : (s.setMem v).cfg = s.cfg := rfl
@[simp] theorem State.setMem_free (s : State) (v : Memory) : (s.setMem v).free = s.free := rfl

@[simp] theorem State.setParity_a (s : State) (v : List Nat) : (s.setParity v).a = s.a := rfl
@[simp] theorem State.setParity_q (s : State) (v : List Nat) : (s.setParity v).q = s.q := rfl
@[simp] theorem State.setParity_bExec (s : State) (v : List Nat) : (s.setParity v).bExec = s.bExec := rfl
@[simp] theorem State.setParity_bWork (s : State) (v : List Nat) : (s.setParity v).bWork = s.bWork := rfl
@[simp] theorem State.setParity_pc (s : State) (v : List Nat) : (s.setParity v).pc = s.pc := rfl
@[simp] theorem State.setParity_ctl (s : State) (v : List Nat) : (s.setParity v).ctl = s.ctl := rfl
@[simp] theorem State.setParity_sel (s : State) (v : List Nat) : (s.setParity v).sel = s.sel := rfl
@[simp] theorem State.setParity_panel (s : State) (v : List Nat) : (s.setParity v).panel = s.panel := rfl
@[simp] theorem State.setParity_run (s : State) (v : List Nat) : (s.setParity v).run = s.run := rfl
@[simp] theorem State.setParity_lockout (s : State) (v : List Nat) : (s.setParity v).lockout = s.lockout := rfl
@[simp] theorem State.setParity_pending (s : State) (v : List Nat) : (s.setParity v).pending = s.pending := rfl
@[simp] theorem State.setParity_rep (s : State) (v : List Nat) : (s.setParity v).rep = s.rep := rfl
@[simp] theorem State.setParity_chans (s : State) (v : List Nat) : (s.setParity v).chans = s.chans := rfl
@[simp] theorem State.setParity_clk (s : State) (v : List Nat) : (s.setParity v).clk = s.clk := rfl
@[simp] theorem State.setParity_mem (s : State) (v : List Nat) : (s.setParity v).mem = s.mem := rfl
@[simp] theorem State.setParity_parity (s : State) (v : List Nat) : (s.setParity v).parity = v := rfl
@[simp] theorem State.setParity_overlap (s : State) (v : List Nat) : (s.setParity v).overlap = s.overlap := rfl
@[simp] theorem State.setParity_fetch (s : State) (v : List Nat) : (s.setParity v).fetch = s.fetch := rfl
@[simp] theorem State.setParity_entryOpen (s : State) (v : List Nat) : (s.setParity v).entryOpen = s.entryOpen := rfl
@[simp] theorem State.setParity_outputs (s : State) (v : List Nat) : (s.setParity v).outputs = s.outputs := rfl
@[simp] theorem State.setParity_inputs (s : State) (v : List Nat) : (s.setParity v).inputs = s.inputs := rfl
@[simp] theorem State.setParity_cfg (s : State) (v : List Nat) : (s.setParity v).cfg = s.cfg := rfl
@[simp] theorem State.setParity_free (s : State) (v : List Nat) : (s.setParity v).free = s.free := rfl

@[simp] theorem State.setOverlap_a (s : State) (v : List (Addr × Word)) : (s.setOverlap v).a = s.a := rfl
@[simp] theorem State.setOverlap_q (s : State) (v : List (Addr × Word)) : (s.setOverlap v).q = s.q := rfl
@[simp] theorem State.setOverlap_bExec (s : State) (v : List (Addr × Word)) : (s.setOverlap v).bExec = s.bExec := rfl
@[simp] theorem State.setOverlap_bWork (s : State) (v : List (Addr × Word)) : (s.setOverlap v).bWork = s.bWork := rfl
@[simp] theorem State.setOverlap_pc (s : State) (v : List (Addr × Word)) : (s.setOverlap v).pc = s.pc := rfl
@[simp] theorem State.setOverlap_ctl (s : State) (v : List (Addr × Word)) : (s.setOverlap v).ctl = s.ctl := rfl
@[simp] theorem State.setOverlap_sel (s : State) (v : List (Addr × Word)) : (s.setOverlap v).sel = s.sel := rfl
@[simp] theorem State.setOverlap_panel (s : State) (v : List (Addr × Word)) : (s.setOverlap v).panel = s.panel := rfl
@[simp] theorem State.setOverlap_run (s : State) (v : List (Addr × Word)) : (s.setOverlap v).run = s.run := rfl
@[simp] theorem State.setOverlap_lockout (s : State) (v : List (Addr × Word)) : (s.setOverlap v).lockout = s.lockout := rfl
@[simp] theorem State.setOverlap_pending (s : State) (v : List (Addr × Word)) : (s.setOverlap v).pending = s.pending := rfl
@[simp] theorem State.setOverlap_rep (s : State) (v : List (Addr × Word)) : (s.setOverlap v).rep = s.rep := rfl
@[simp] theorem State.setOverlap_chans (s : State) (v : List (Addr × Word)) : (s.setOverlap v).chans = s.chans := rfl
@[simp] theorem State.setOverlap_clk (s : State) (v : List (Addr × Word)) : (s.setOverlap v).clk = s.clk := rfl
@[simp] theorem State.setOverlap_mem (s : State) (v : List (Addr × Word)) : (s.setOverlap v).mem = s.mem := rfl
@[simp] theorem State.setOverlap_parity (s : State) (v : List (Addr × Word)) : (s.setOverlap v).parity = s.parity := rfl
@[simp] theorem State.setOverlap_overlap (s : State) (v : List (Addr × Word)) : (s.setOverlap v).overlap = v := rfl
@[simp] theorem State.setOverlap_fetch (s : State) (v : List (Addr × Word)) : (s.setOverlap v).fetch = s.fetch := rfl
@[simp] theorem State.setOverlap_entryOpen (s : State) (v : List (Addr × Word)) : (s.setOverlap v).entryOpen = s.entryOpen := rfl
@[simp] theorem State.setOverlap_outputs (s : State) (v : List (Addr × Word)) : (s.setOverlap v).outputs = s.outputs := rfl
@[simp] theorem State.setOverlap_inputs (s : State) (v : List (Addr × Word)) : (s.setOverlap v).inputs = s.inputs := rfl
@[simp] theorem State.setOverlap_cfg (s : State) (v : List (Addr × Word)) : (s.setOverlap v).cfg = s.cfg := rfl
@[simp] theorem State.setOverlap_free (s : State) (v : List (Addr × Word)) : (s.setOverlap v).free = s.free := rfl

@[simp] theorem State.setFetch_a (s : State) (v : FetchSource) : (s.setFetch v).a = s.a := rfl
@[simp] theorem State.setFetch_q (s : State) (v : FetchSource) : (s.setFetch v).q = s.q := rfl
@[simp] theorem State.setFetch_bExec (s : State) (v : FetchSource) : (s.setFetch v).bExec = s.bExec := rfl
@[simp] theorem State.setFetch_bWork (s : State) (v : FetchSource) : (s.setFetch v).bWork = s.bWork := rfl
@[simp] theorem State.setFetch_pc (s : State) (v : FetchSource) : (s.setFetch v).pc = s.pc := rfl
@[simp] theorem State.setFetch_ctl (s : State) (v : FetchSource) : (s.setFetch v).ctl = s.ctl := rfl
@[simp] theorem State.setFetch_sel (s : State) (v : FetchSource) : (s.setFetch v).sel = s.sel := rfl
@[simp] theorem State.setFetch_panel (s : State) (v : FetchSource) : (s.setFetch v).panel = s.panel := rfl
@[simp] theorem State.setFetch_run (s : State) (v : FetchSource) : (s.setFetch v).run = s.run := rfl
@[simp] theorem State.setFetch_lockout (s : State) (v : FetchSource) : (s.setFetch v).lockout = s.lockout := rfl
@[simp] theorem State.setFetch_pending (s : State) (v : FetchSource) : (s.setFetch v).pending = s.pending := rfl
@[simp] theorem State.setFetch_rep (s : State) (v : FetchSource) : (s.setFetch v).rep = s.rep := rfl
@[simp] theorem State.setFetch_chans (s : State) (v : FetchSource) : (s.setFetch v).chans = s.chans := rfl
@[simp] theorem State.setFetch_clk (s : State) (v : FetchSource) : (s.setFetch v).clk = s.clk := rfl
@[simp] theorem State.setFetch_mem (s : State) (v : FetchSource) : (s.setFetch v).mem = s.mem := rfl
@[simp] theorem State.setFetch_parity (s : State) (v : FetchSource) : (s.setFetch v).parity = s.parity := rfl
@[simp] theorem State.setFetch_overlap (s : State) (v : FetchSource) : (s.setFetch v).overlap = s.overlap := rfl
@[simp] theorem State.setFetch_fetch (s : State) (v : FetchSource) : (s.setFetch v).fetch = v := rfl
@[simp] theorem State.setFetch_entryOpen (s : State) (v : FetchSource) : (s.setFetch v).entryOpen = s.entryOpen := rfl
@[simp] theorem State.setFetch_outputs (s : State) (v : FetchSource) : (s.setFetch v).outputs = s.outputs := rfl
@[simp] theorem State.setFetch_inputs (s : State) (v : FetchSource) : (s.setFetch v).inputs = s.inputs := rfl
@[simp] theorem State.setFetch_cfg (s : State) (v : FetchSource) : (s.setFetch v).cfg = s.cfg := rfl
@[simp] theorem State.setFetch_free (s : State) (v : FetchSource) : (s.setFetch v).free = s.free := rfl

@[simp] theorem State.setEntryOpen_a (s : State) (v : Bool) : (s.setEntryOpen v).a = s.a := rfl
@[simp] theorem State.setEntryOpen_q (s : State) (v : Bool) : (s.setEntryOpen v).q = s.q := rfl
@[simp] theorem State.setEntryOpen_bExec (s : State) (v : Bool) : (s.setEntryOpen v).bExec = s.bExec := rfl
@[simp] theorem State.setEntryOpen_bWork (s : State) (v : Bool) : (s.setEntryOpen v).bWork = s.bWork := rfl
@[simp] theorem State.setEntryOpen_pc (s : State) (v : Bool) : (s.setEntryOpen v).pc = s.pc := rfl
@[simp] theorem State.setEntryOpen_ctl (s : State) (v : Bool) : (s.setEntryOpen v).ctl = s.ctl := rfl
@[simp] theorem State.setEntryOpen_sel (s : State) (v : Bool) : (s.setEntryOpen v).sel = s.sel := rfl
@[simp] theorem State.setEntryOpen_panel (s : State) (v : Bool) : (s.setEntryOpen v).panel = s.panel := rfl
@[simp] theorem State.setEntryOpen_run (s : State) (v : Bool) : (s.setEntryOpen v).run = s.run := rfl
@[simp] theorem State.setEntryOpen_lockout (s : State) (v : Bool) : (s.setEntryOpen v).lockout = s.lockout := rfl
@[simp] theorem State.setEntryOpen_pending (s : State) (v : Bool) : (s.setEntryOpen v).pending = s.pending := rfl
@[simp] theorem State.setEntryOpen_rep (s : State) (v : Bool) : (s.setEntryOpen v).rep = s.rep := rfl
@[simp] theorem State.setEntryOpen_chans (s : State) (v : Bool) : (s.setEntryOpen v).chans = s.chans := rfl
@[simp] theorem State.setEntryOpen_clk (s : State) (v : Bool) : (s.setEntryOpen v).clk = s.clk := rfl
@[simp] theorem State.setEntryOpen_mem (s : State) (v : Bool) : (s.setEntryOpen v).mem = s.mem := rfl
@[simp] theorem State.setEntryOpen_parity (s : State) (v : Bool) : (s.setEntryOpen v).parity = s.parity := rfl
@[simp] theorem State.setEntryOpen_overlap (s : State) (v : Bool) : (s.setEntryOpen v).overlap = s.overlap := rfl
@[simp] theorem State.setEntryOpen_fetch (s : State) (v : Bool) : (s.setEntryOpen v).fetch = s.fetch := rfl
@[simp] theorem State.setEntryOpen_entryOpen (s : State) (v : Bool) : (s.setEntryOpen v).entryOpen = v := rfl
@[simp] theorem State.setEntryOpen_outputs (s : State) (v : Bool) : (s.setEntryOpen v).outputs = s.outputs := rfl
@[simp] theorem State.setEntryOpen_inputs (s : State) (v : Bool) : (s.setEntryOpen v).inputs = s.inputs := rfl
@[simp] theorem State.setEntryOpen_cfg (s : State) (v : Bool) : (s.setEntryOpen v).cfg = s.cfg := rfl
@[simp] theorem State.setEntryOpen_free (s : State) (v : Bool) : (s.setEntryOpen v).free = s.free := rfl

@[simp] theorem State.setOutputs_a (s : State) (v : List Signal) : (s.setOutputs v).a = s.a := rfl
@[simp] theorem State.setOutputs_q (s : State) (v : List Signal) : (s.setOutputs v).q = s.q := rfl
@[simp] theorem State.setOutputs_bExec (s : State) (v : List Signal) : (s.setOutputs v).bExec = s.bExec := rfl
@[simp] theorem State.setOutputs_bWork (s : State) (v : List Signal) : (s.setOutputs v).bWork = s.bWork := rfl
@[simp] theorem State.setOutputs_pc (s : State) (v : List Signal) : (s.setOutputs v).pc = s.pc := rfl
@[simp] theorem State.setOutputs_ctl (s : State) (v : List Signal) : (s.setOutputs v).ctl = s.ctl := rfl
@[simp] theorem State.setOutputs_sel (s : State) (v : List Signal) : (s.setOutputs v).sel = s.sel := rfl
@[simp] theorem State.setOutputs_panel (s : State) (v : List Signal) : (s.setOutputs v).panel = s.panel := rfl
@[simp] theorem State.setOutputs_run (s : State) (v : List Signal) : (s.setOutputs v).run = s.run := rfl
@[simp] theorem State.setOutputs_lockout (s : State) (v : List Signal) : (s.setOutputs v).lockout = s.lockout := rfl
@[simp] theorem State.setOutputs_pending (s : State) (v : List Signal) : (s.setOutputs v).pending = s.pending := rfl
@[simp] theorem State.setOutputs_rep (s : State) (v : List Signal) : (s.setOutputs v).rep = s.rep := rfl
@[simp] theorem State.setOutputs_chans (s : State) (v : List Signal) : (s.setOutputs v).chans = s.chans := rfl
@[simp] theorem State.setOutputs_clk (s : State) (v : List Signal) : (s.setOutputs v).clk = s.clk := rfl
@[simp] theorem State.setOutputs_mem (s : State) (v : List Signal) : (s.setOutputs v).mem = s.mem := rfl
@[simp] theorem State.setOutputs_parity (s : State) (v : List Signal) : (s.setOutputs v).parity = s.parity := rfl
@[simp] theorem State.setOutputs_overlap (s : State) (v : List Signal) : (s.setOutputs v).overlap = s.overlap := rfl
@[simp] theorem State.setOutputs_fetch (s : State) (v : List Signal) : (s.setOutputs v).fetch = s.fetch := rfl
@[simp] theorem State.setOutputs_entryOpen (s : State) (v : List Signal) : (s.setOutputs v).entryOpen = s.entryOpen := rfl
@[simp] theorem State.setOutputs_outputs (s : State) (v : List Signal) : (s.setOutputs v).outputs = v := rfl
@[simp] theorem State.setOutputs_inputs (s : State) (v : List Signal) : (s.setOutputs v).inputs = s.inputs := rfl
@[simp] theorem State.setOutputs_cfg (s : State) (v : List Signal) : (s.setOutputs v).cfg = s.cfg := rfl
@[simp] theorem State.setOutputs_free (s : State) (v : List Signal) : (s.setOutputs v).free = s.free := rfl

@[simp] theorem State.setInputs_a (s : State) (v : List Event) : (s.setInputs v).a = s.a := rfl
@[simp] theorem State.setInputs_q (s : State) (v : List Event) : (s.setInputs v).q = s.q := rfl
@[simp] theorem State.setInputs_bExec (s : State) (v : List Event) : (s.setInputs v).bExec = s.bExec := rfl
@[simp] theorem State.setInputs_bWork (s : State) (v : List Event) : (s.setInputs v).bWork = s.bWork := rfl
@[simp] theorem State.setInputs_pc (s : State) (v : List Event) : (s.setInputs v).pc = s.pc := rfl
@[simp] theorem State.setInputs_ctl (s : State) (v : List Event) : (s.setInputs v).ctl = s.ctl := rfl
@[simp] theorem State.setInputs_sel (s : State) (v : List Event) : (s.setInputs v).sel = s.sel := rfl
@[simp] theorem State.setInputs_panel (s : State) (v : List Event) : (s.setInputs v).panel = s.panel := rfl
@[simp] theorem State.setInputs_run (s : State) (v : List Event) : (s.setInputs v).run = s.run := rfl
@[simp] theorem State.setInputs_lockout (s : State) (v : List Event) : (s.setInputs v).lockout = s.lockout := rfl
@[simp] theorem State.setInputs_pending (s : State) (v : List Event) : (s.setInputs v).pending = s.pending := rfl
@[simp] theorem State.setInputs_rep (s : State) (v : List Event) : (s.setInputs v).rep = s.rep := rfl
@[simp] theorem State.setInputs_chans (s : State) (v : List Event) : (s.setInputs v).chans = s.chans := rfl
@[simp] theorem State.setInputs_clk (s : State) (v : List Event) : (s.setInputs v).clk = s.clk := rfl
@[simp] theorem State.setInputs_mem (s : State) (v : List Event) : (s.setInputs v).mem = s.mem := rfl
@[simp] theorem State.setInputs_parity (s : State) (v : List Event) : (s.setInputs v).parity = s.parity := rfl
@[simp] theorem State.setInputs_overlap (s : State) (v : List Event) : (s.setInputs v).overlap = s.overlap := rfl
@[simp] theorem State.setInputs_fetch (s : State) (v : List Event) : (s.setInputs v).fetch = s.fetch := rfl
@[simp] theorem State.setInputs_entryOpen (s : State) (v : List Event) : (s.setInputs v).entryOpen = s.entryOpen := rfl
@[simp] theorem State.setInputs_outputs (s : State) (v : List Event) : (s.setInputs v).outputs = s.outputs := rfl
@[simp] theorem State.setInputs_inputs (s : State) (v : List Event) : (s.setInputs v).inputs = v := rfl
@[simp] theorem State.setInputs_cfg (s : State) (v : List Event) : (s.setInputs v).cfg = s.cfg := rfl
@[simp] theorem State.setInputs_free (s : State) (v : List Event) : (s.setInputs v).free = s.free := rfl

@[simp] theorem State.setCfg_a (s : State) (v : Config) : (s.setCfg v).a = s.a := rfl
@[simp] theorem State.setCfg_q (s : State) (v : Config) : (s.setCfg v).q = s.q := rfl
@[simp] theorem State.setCfg_bExec (s : State) (v : Config) : (s.setCfg v).bExec = s.bExec := rfl
@[simp] theorem State.setCfg_bWork (s : State) (v : Config) : (s.setCfg v).bWork = s.bWork := rfl
@[simp] theorem State.setCfg_pc (s : State) (v : Config) : (s.setCfg v).pc = s.pc := rfl
@[simp] theorem State.setCfg_ctl (s : State) (v : Config) : (s.setCfg v).ctl = s.ctl := rfl
@[simp] theorem State.setCfg_sel (s : State) (v : Config) : (s.setCfg v).sel = s.sel := rfl
@[simp] theorem State.setCfg_panel (s : State) (v : Config) : (s.setCfg v).panel = s.panel := rfl
@[simp] theorem State.setCfg_run (s : State) (v : Config) : (s.setCfg v).run = s.run := rfl
@[simp] theorem State.setCfg_lockout (s : State) (v : Config) : (s.setCfg v).lockout = s.lockout := rfl
@[simp] theorem State.setCfg_pending (s : State) (v : Config) : (s.setCfg v).pending = s.pending := rfl
@[simp] theorem State.setCfg_rep (s : State) (v : Config) : (s.setCfg v).rep = s.rep := rfl
@[simp] theorem State.setCfg_chans (s : State) (v : Config) : (s.setCfg v).chans = s.chans := rfl
@[simp] theorem State.setCfg_clk (s : State) (v : Config) : (s.setCfg v).clk = s.clk := rfl
@[simp] theorem State.setCfg_mem (s : State) (v : Config) : (s.setCfg v).mem = s.mem := rfl
@[simp] theorem State.setCfg_parity (s : State) (v : Config) : (s.setCfg v).parity = s.parity := rfl
@[simp] theorem State.setCfg_overlap (s : State) (v : Config) : (s.setCfg v).overlap = s.overlap := rfl
@[simp] theorem State.setCfg_fetch (s : State) (v : Config) : (s.setCfg v).fetch = s.fetch := rfl
@[simp] theorem State.setCfg_entryOpen (s : State) (v : Config) : (s.setCfg v).entryOpen = s.entryOpen := rfl
@[simp] theorem State.setCfg_outputs (s : State) (v : Config) : (s.setCfg v).outputs = s.outputs := rfl
@[simp] theorem State.setCfg_inputs (s : State) (v : Config) : (s.setCfg v).inputs = s.inputs := rfl
@[simp] theorem State.setCfg_cfg (s : State) (v : Config) : (s.setCfg v).cfg = v := rfl
@[simp] theorem State.setCfg_free (s : State) (v : Config) : (s.setCfg v).free = s.free := rfl

@[simp] theorem State.setFree_a (s : State) (v : Nat) : (s.setFree v).a = s.a := rfl
@[simp] theorem State.setFree_q (s : State) (v : Nat) : (s.setFree v).q = s.q := rfl
@[simp] theorem State.setFree_bExec (s : State) (v : Nat) : (s.setFree v).bExec = s.bExec := rfl
@[simp] theorem State.setFree_bWork (s : State) (v : Nat) : (s.setFree v).bWork = s.bWork := rfl
@[simp] theorem State.setFree_pc (s : State) (v : Nat) : (s.setFree v).pc = s.pc := rfl
@[simp] theorem State.setFree_ctl (s : State) (v : Nat) : (s.setFree v).ctl = s.ctl := rfl
@[simp] theorem State.setFree_sel (s : State) (v : Nat) : (s.setFree v).sel = s.sel := rfl
@[simp] theorem State.setFree_panel (s : State) (v : Nat) : (s.setFree v).panel = s.panel := rfl
@[simp] theorem State.setFree_run (s : State) (v : Nat) : (s.setFree v).run = s.run := rfl
@[simp] theorem State.setFree_lockout (s : State) (v : Nat) : (s.setFree v).lockout = s.lockout := rfl
@[simp] theorem State.setFree_pending (s : State) (v : Nat) : (s.setFree v).pending = s.pending := rfl
@[simp] theorem State.setFree_rep (s : State) (v : Nat) : (s.setFree v).rep = s.rep := rfl
@[simp] theorem State.setFree_chans (s : State) (v : Nat) : (s.setFree v).chans = s.chans := rfl
@[simp] theorem State.setFree_clk (s : State) (v : Nat) : (s.setFree v).clk = s.clk := rfl
@[simp] theorem State.setFree_mem (s : State) (v : Nat) : (s.setFree v).mem = s.mem := rfl
@[simp] theorem State.setFree_parity (s : State) (v : Nat) : (s.setFree v).parity = s.parity := rfl
@[simp] theorem State.setFree_overlap (s : State) (v : Nat) : (s.setFree v).overlap = s.overlap := rfl
@[simp] theorem State.setFree_fetch (s : State) (v : Nat) : (s.setFree v).fetch = s.fetch := rfl
@[simp] theorem State.setFree_entryOpen (s : State) (v : Nat) : (s.setFree v).entryOpen = s.entryOpen := rfl
@[simp] theorem State.setFree_outputs (s : State) (v : Nat) : (s.setFree v).outputs = s.outputs := rfl
@[simp] theorem State.setFree_inputs (s : State) (v : Nat) : (s.setFree v).inputs = s.inputs := rfl
@[simp] theorem State.setFree_cfg (s : State) (v : Nat) : (s.setFree v).cfg = s.cfg := rfl
@[simp] theorem State.setFree_free (s : State) (v : Nat) : (s.setFree v).free = v := rfl

end Sys2Proof.Machine
end

