-- ==== Sys2Proof/Laws/Memory.lean ====
section
/-! SUPPORT. Storage: what a write leaves, and that every operation keeps the canonical form. -/

namespace Sys2Proof.Machine

open Sys2Proof

theorem Memory.get_put (m : Memory) (a b : Nat) (v : Word) : (m.put a v).get b = if a = b then v else m.get b := by
  induction m with
  | nil => simp [Memory.put, Memory.get]
  | cons c m ih =>
    obtain ⟨k, w⟩ := c
    simp only [Memory.put]
    split
    · simp [Memory.get]
    · split
      · subst_vars; simp only [Memory.get]; split <;> rfl
      · simp only [Memory.get, ih]; split <;> split <;> simp_all

theorem Memory.get_drop (m : Memory) (a b : Nat) : (m.drop a).get b = if a = b then 0 else m.get b := by
  induction m with
  | nil => simp [Memory.drop, Memory.get]
  | cons c m ih =>
    obtain ⟨k, w⟩ := c
    simp only [Memory.drop]
    split
    · subst_vars; rw [ih]; simp only [Memory.get]; split <;> rfl
    · simp only [Memory.get, ih]; split <;> split <;> simp_all

/-- A read after a write: the written word at its address, the old word elsewhere. -/
theorem Memory.get_set (m : Memory) (a b : Nat) (v : Word) : (m.set a v).get b = if a = b then v else m.get b := by
  unfold Memory.set
  split
  · rw [Memory.get_drop]; split <;> simp_all
  · exact Memory.get_put m a b v

theorem Memory.mem_drop {m : Memory} {a : Nat} {c : Nat × Word} (h : c ∈ m.drop a) : c ∈ m := by
  induction m with
  | nil => simp [Memory.drop] at h
  | cons d m ih =>
    obtain ⟨k, w⟩ := d
    simp only [Memory.drop] at h
    split at h
    · exact List.mem_cons_of_mem _ (ih h)
    · rcases List.mem_cons.1 h with h | h
      · exact h ▸ List.mem_cons_self
      · exact List.mem_cons_of_mem _ (ih h)

theorem Memory.mem_put {m : Memory} {a : Nat} {v : Word} {c : Nat × Word} (h : c ∈ m.put a v) : c = (a, v) ∨ c ∈ m := by
  induction m with
  | nil => simpa [Memory.put] using h
  | cons d m ih =>
    obtain ⟨k, w⟩ := d
    simp only [Memory.put] at h
    split at h
    · rcases List.mem_cons.1 h with h | h
      · exact .inl h
      · exact .inr h
    · split at h
      · rcases List.mem_cons.1 h with h | h
        · exact .inl h
        · exact .inr (List.mem_cons_of_mem _ h)
      · rcases List.mem_cons.1 h with h | h
        · exact .inr (h ▸ List.mem_cons_self)
        · exact (ih h).imp id (List.mem_cons_of_mem _)

theorem Memory.drop_wf {m : Memory} (h : m.wf) (a : Nat) : (m.drop a).wf := by
  induction m with
  | nil => exact h
  | cons d m ih =>
    obtain ⟨k, w⟩ := d
    have hm : Memory.wf m := ⟨(List.pairwise_cons.1 h.1).2, fun c hc => h.2 c (List.mem_cons_of_mem _ hc)⟩
    simp only [Memory.drop]
    split
    · exact ih hm
    · refine ⟨List.pairwise_cons.2 ⟨fun c hc => (List.pairwise_cons.1 h.1).1 c (Memory.mem_drop hc), (ih hm).1⟩, ?_⟩
      intro c hc
      rcases List.mem_cons.1 hc with rfl | hc
      · exact h.2 _ List.mem_cons_self
      · exact (ih hm).2 c hc

theorem Memory.put_wf {m : Memory} (h : m.wf) (a : Nat) {v : Word} (hv : v ≠ 0) : (m.put a v).wf := by
  induction m with
  | nil => exact ⟨List.pairwise_singleton _ _, by simpa [Memory.put] using hv⟩
  | cons d m ih =>
    obtain ⟨k, w⟩ := d
    have hp := List.pairwise_cons.1 h.1
    have hm : Memory.wf m := ⟨hp.2, fun c hc => h.2 c (List.mem_cons_of_mem _ hc)⟩
    simp only [Memory.put]
    split
    · refine ⟨List.pairwise_cons.2 ⟨?_, h.1⟩, ?_⟩
      · intro c hc
        rcases List.mem_cons.1 hc with rfl | hc
        · assumption
        · exact lt_trans ‹_› (hp.1 c hc)
      · intro c hc
        rcases List.mem_cons.1 hc with rfl | hc
        · exact hv
        · exact h.2 c hc
    · split
      · subst_vars
        refine ⟨List.pairwise_cons.2 ⟨hp.1, hp.2⟩, ?_⟩
        intro c hc
        rcases List.mem_cons.1 hc with rfl | hc
        · exact hv
        · exact h.2 c (List.mem_cons_of_mem _ hc)
      · refine ⟨List.pairwise_cons.2 ⟨?_, (ih hm).1⟩, ?_⟩
        · intro c hc
          rcases Memory.mem_put hc with rfl | hc
          · simp only; omega
          · exact hp.1 c hc
        · intro c hc
          rcases List.mem_cons.1 hc with rfl | hc
          · exact h.2 _ List.mem_cons_self
          · exact (ih hm).2 c hc

/-- Every write of storage keeps the canonical form. -/
theorem Memory.set_wf {m : Memory} (h : m.wf) (a : Nat) (v : Word) : (m.set a v).wf := by
  unfold Memory.set
  split
  · exact Memory.drop_wf h a
  · exact Memory.put_wf h a ‹_›

/-- A write lists no other address than its own. -/
theorem Memory.mem_set {m : Memory} {a : Nat} {v : Word} {c : Nat × Word} (h : c ∈ m.set a v) : c = (a, v) ∨ c ∈ m := by
  unfold Memory.set at h
  split at h
  · exact .inr (Memory.mem_drop h)
  · exact Memory.mem_put h

/-- The reset storage has the canonical form. -/
theorem reset_mem_wf : State.reset.mem.wf := by decide

end Sys2Proof.Machine
end

