-- ==== Sys2Proof/Laws/Ops.lean ====
section
/-! SUPPORT. The shared operations: what each one can answer and what it leaves. -/

namespace Sys2Proof.Machine

open Sys2Proof

@[simp] theorem Res.andThen_ok {α : Type} (v : α) (s : State) (k : α → State → Result) : (Res.ok v s).andThen k = k v s := rfl

@[simp] theorem Res.andThen_stop {α : Type} (r : Result) (k : α → State → Result) : (Res.stop r : Res α).andThen k = r := rfl

@[simp] theorem Res.bind_ok {α β : Type} (v : α) (s : State) (k : α → State → Res β) : (Res.ok v s).bind k = k v s := rfl

@[simp] theorem Res.bind_stop {α β : Type} (r : Result) (k : α → State → Res β) : (Res.stop r : Res α).bind k = .stop r := rfl

/-! ## What each operation leaves -/

@[simp] theorem setIfr_a (w : Word) (s : State) : (setIfr w s).a = s.a := rfl
@[simp] theorem setIfr_q (w : Word) (s : State) : (setIfr w s).q = s.q := rfl
@[simp] theorem setIfr_bExec (w : Word) (s : State) : (setIfr w s).bExec = s.bExec := rfl
@[simp] theorem setIfr_bWork (w : Word) (s : State) : (setIfr w s).bWork = s.bWork := rfl
@[simp] theorem setIfr_pc (w : Word) (s : State) : (setIfr w s).pc = s.pc := rfl
@[simp] theorem setIfr_sel (w : Word) (s : State) : (setIfr w s).sel = s.sel := rfl
@[simp] theorem setIfr_panel (w : Word) (s : State) : (setIfr w s).panel = s.panel := rfl
@[simp] theorem setIfr_run (w : Word) (s : State) : (setIfr w s).run = s.run := rfl
@[simp] theorem setIfr_lockout (w : Word) (s : State) : (setIfr w s).lockout = s.lockout := rfl
@[simp] theorem setIfr_pending (w : Word) (s : State) : (setIfr w s).pending = s.pending := rfl
@[simp] theorem setIfr_rep (w : Word) (s : State) : (setIfr w s).rep = s.rep := rfl
@[simp] theorem setIfr_chans (w : Word) (s : State) : (setIfr w s).chans = s.chans := rfl
@[simp] theorem setIfr_clk (w : Word) (s : State) : (setIfr w s).clk = s.clk := rfl
@[simp] theorem setIfr_mem (w : Word) (s : State) : (setIfr w s).mem = s.mem := rfl
@[simp] theorem setIfr_parity (w : Word) (s : State) : (setIfr w s).parity = s.parity := rfl
@[simp] theorem setIfr_overlap (w : Word) (s : State) : (setIfr w s).overlap = s.overlap := rfl
@[simp] theorem setIfr_fetch (w : Word) (s : State) : (setIfr w s).fetch = s.fetch := rfl
@[simp] theorem setIfr_entryOpen (w : Word) (s : State) : (setIfr w s).entryOpen = s.entryOpen := rfl
@[simp] theorem setIfr_outputs (w : Word) (s : State) : (setIfr w s).outputs = s.outputs := rfl
@[simp] theorem setIfr_inputs (w : Word) (s : State) : (setIfr w s).inputs = s.inputs := rfl
@[simp] theorem setIfr_cfg (w : Word) (s : State) : (setIfr w s).cfg = s.cfg := rfl
@[simp] theorem setIfr_free (w : Word) (s : State) : (setIfr w s).free = s.free := rfl

@[simp] theorem spend_a (s : State) : (spend s).a = s.a := rfl
@[simp] theorem spend_q (s : State) : (spend s).q = s.q := rfl
@[simp] theorem spend_bExec (s : State) : (spend s).bExec = s.bExec := rfl
@[simp] theorem spend_bWork (s : State) : (spend s).bWork = s.bWork := rfl
@[simp] theorem spend_pc (s : State) : (spend s).pc = s.pc := rfl
@[simp] theorem spend_ctl (s : State) : (spend s).ctl = s.ctl := rfl
@[simp] theorem spend_sel (s : State) : (spend s).sel = s.sel := rfl
@[simp] theorem spend_panel (s : State) : (spend s).panel = s.panel := rfl
@[simp] theorem spend_run (s : State) : (spend s).run = s.run := rfl
@[simp] theorem spend_lockout (s : State) : (spend s).lockout = s.lockout := rfl
@[simp] theorem spend_pending (s : State) : (spend s).pending = s.pending := rfl
@[simp] theorem spend_rep (s : State) : (spend s).rep = s.rep := rfl
@[simp] theorem spend_chans (s : State) : (spend s).chans = s.chans := rfl
@[simp] theorem spend_clk (s : State) : (spend s).clk = s.clk := rfl
@[simp] theorem spend_mem (s : State) : (spend s).mem = s.mem := rfl
@[simp] theorem spend_parity (s : State) : (spend s).parity = s.parity := rfl
@[simp] theorem spend_overlap (s : State) : (spend s).overlap = s.overlap := rfl
@[simp] theorem spend_fetch (s : State) : (spend s).fetch = s.fetch := rfl
@[simp] theorem spend_entryOpen (s : State) : (spend s).entryOpen = s.entryOpen := rfl
@[simp] theorem spend_outputs (s : State) : (spend s).outputs = s.outputs := rfl
@[simp] theorem spend_inputs (s : State) : (spend s).inputs = s.inputs := rfl
@[simp] theorem spend_cfg (s : State) : (spend s).cfg = s.cfg := rfl

@[simp] theorem activate_a (s : State) : (activate s).a = s.a := rfl
@[simp] theorem activate_q (s : State) : (activate s).q = s.q := rfl
@[simp] theorem activate_bExec (s : State) : (activate s).bExec = s.bExec := rfl
@[simp] theorem activate_bWork (s : State) : (activate s).bWork = s.bWork := rfl
@[simp] theorem activate_pc (s : State) : (activate s).pc = s.pc := rfl
@[simp] theorem activate_sel (s : State) : (activate s).sel = s.sel := rfl
@[simp] theorem activate_panel (s : State) : (activate s).panel = s.panel := rfl
@[simp] theorem activate_run (s : State) : (activate s).run = s.run := rfl
@[simp] theorem activate_lockout (s : State) : (activate s).lockout = s.lockout := rfl
@[simp] theorem activate_pending (s : State) : (activate s).pending = s.pending := rfl
@[simp] theorem activate_rep (s : State) : (activate s).rep = s.rep := rfl
@[simp] theorem activate_chans (s : State) : (activate s).chans = s.chans := rfl
@[simp] theorem activate_clk (s : State) : (activate s).clk = s.clk := rfl
@[simp] theorem activate_mem (s : State) : (activate s).mem = s.mem := rfl
@[simp] theorem activate_parity (s : State) : (activate s).parity = s.parity := rfl
@[simp] theorem activate_overlap (s : State) : (activate s).overlap = s.overlap := rfl
@[simp] theorem activate_fetch (s : State) : (activate s).fetch = s.fetch := rfl
@[simp] theorem activate_entryOpen (s : State) : (activate s).entryOpen = s.entryOpen := rfl
@[simp] theorem activate_outputs (s : State) : (activate s).outputs = s.outputs := rfl
@[simp] theorem activate_inputs (s : State) : (activate s).inputs = s.inputs := rfl
@[simp] theorem activate_cfg (s : State) : (activate s).cfg = s.cfg := rfl
@[simp] theorem activate_free (s : State) : (activate s).free = s.free := rfl

@[simp] theorem capture_a (v : Addr) (s : State) : (capture v s).a = s.a := by unfold capture; split <;> rfl
@[simp] theorem capture_q (v : Addr) (s : State) : (capture v s).q = s.q := by unfold capture; split <;> rfl
@[simp] theorem capture_bExec (v : Addr) (s : State) : (capture v s).bExec = s.bExec := by unfold capture; split <;> rfl
@[simp] theorem capture_bWork (v : Addr) (s : State) : (capture v s).bWork = s.bWork := by unfold capture; split <;> rfl
@[simp] theorem capture_pc (v : Addr) (s : State) : (capture v s).pc = s.pc := by unfold capture; split <;> rfl
@[simp] theorem capture_sel (v : Addr) (s : State) : (capture v s).sel = s.sel := by unfold capture; split <;> rfl
@[simp] theorem capture_panel (v : Addr) (s : State) : (capture v s).panel = s.panel := by unfold capture; split <;> rfl
@[simp] theorem capture_run (v : Addr) (s : State) : (capture v s).run = s.run := by unfold capture; split <;> rfl
@[simp] theorem capture_lockout (v : Addr) (s : State) : (capture v s).lockout = s.lockout := by unfold capture; split <;> rfl
@[simp] theorem capture_pending (v : Addr) (s : State) : (capture v s).pending = s.pending := by unfold capture; split <;> rfl
@[simp] theorem capture_rep (v : Addr) (s : State) : (capture v s).rep = s.rep := by unfold capture; split <;> rfl
@[simp] theorem capture_chans (v : Addr) (s : State) : (capture v s).chans = s.chans := by unfold capture; split <;> rfl
@[simp] theorem capture_clk (v : Addr) (s : State) : (capture v s).clk = s.clk := by unfold capture; split <;> rfl
@[simp] theorem capture_mem (v : Addr) (s : State) : (capture v s).mem = s.mem := by unfold capture; split <;> rfl
@[simp] theorem capture_parity (v : Addr) (s : State) : (capture v s).parity = s.parity := by unfold capture; split <;> rfl
@[simp] theorem capture_overlap (v : Addr) (s : State) : (capture v s).overlap = s.overlap := by unfold capture; split <;> rfl
@[simp] theorem capture_fetch (v : Addr) (s : State) : (capture v s).fetch = s.fetch := by unfold capture; split <;> rfl
@[simp] theorem capture_entryOpen (v : Addr) (s : State) : (capture v s).entryOpen = s.entryOpen := by unfold capture; split <;> rfl
@[simp] theorem capture_outputs (v : Addr) (s : State) : (capture v s).outputs = s.outputs := by unfold capture; split <;> rfl
@[simp] theorem capture_inputs (v : Addr) (s : State) : (capture v s).inputs = s.inputs := by unfold capture; split <;> rfl
@[simp] theorem capture_cfg (v : Addr) (s : State) : (capture v s).cfg = s.cfg := by unfold capture; split <;> rfl
@[simp] theorem capture_free (v : Addr) (s : State) : (capture v s).free = s.free := by unfold capture; split <;> rfl

@[simp] theorem afterConvert_a (s : State) : (afterConvert s).a = s.a := by unfold afterConvert; split <;> rfl
@[simp] theorem afterConvert_q (s : State) : (afterConvert s).q = s.q := by unfold afterConvert; split <;> rfl
@[simp] theorem afterConvert_bExec (s : State) : (afterConvert s).bExec = s.bExec := by unfold afterConvert; split <;> rfl
@[simp] theorem afterConvert_bWork (s : State) : (afterConvert s).bWork = s.bWork := by unfold afterConvert; split <;> rfl
@[simp] theorem afterConvert_pc (s : State) : (afterConvert s).pc = s.pc := by unfold afterConvert; split <;> rfl
@[simp] theorem afterConvert_sel (s : State) : (afterConvert s).sel = s.sel := by unfold afterConvert; split <;> rfl
@[simp] theorem afterConvert_panel (s : State) : (afterConvert s).panel = s.panel := by unfold afterConvert; split <;> rfl
@[simp] theorem afterConvert_run (s : State) : (afterConvert s).run = s.run := by unfold afterConvert; split <;> rfl
@[simp] theorem afterConvert_lockout (s : State) : (afterConvert s).lockout = s.lockout := by unfold afterConvert; split <;> rfl
@[simp] theorem afterConvert_pending (s : State) : (afterConvert s).pending = s.pending := by unfold afterConvert; split <;> rfl
@[simp] theorem afterConvert_rep (s : State) : (afterConvert s).rep = s.rep := by unfold afterConvert; split <;> rfl
@[simp] theorem afterConvert_chans (s : State) : (afterConvert s).chans = s.chans := by unfold afterConvert; split <;> rfl
@[simp] theorem afterConvert_clk (s : State) : (afterConvert s).clk = s.clk := by unfold afterConvert; split <;> rfl
@[simp] theorem afterConvert_mem (s : State) : (afterConvert s).mem = s.mem := by unfold afterConvert; split <;> rfl
@[simp] theorem afterConvert_parity (s : State) : (afterConvert s).parity = s.parity := by unfold afterConvert; split <;> rfl
@[simp] theorem afterConvert_overlap (s : State) : (afterConvert s).overlap = s.overlap := by unfold afterConvert; split <;> rfl
@[simp] theorem afterConvert_fetch (s : State) : (afterConvert s).fetch = s.fetch := by unfold afterConvert; split <;> rfl
@[simp] theorem afterConvert_entryOpen (s : State) : (afterConvert s).entryOpen = s.entryOpen := by unfold afterConvert; split <;> rfl
@[simp] theorem afterConvert_outputs (s : State) : (afterConvert s).outputs = s.outputs := by unfold afterConvert; split <;> rfl
@[simp] theorem afterConvert_inputs (s : State) : (afterConvert s).inputs = s.inputs := by unfold afterConvert; split <;> rfl
@[simp] theorem afterConvert_cfg (s : State) : (afterConvert s).cfg = s.cfg := by unfold afterConvert; split <;> rfl
@[simp] theorem afterConvert_free (s : State) : (afterConvert s).free = s.free := by unfold afterConvert; split <;> rfl

@[simp] theorem captureUnused_a (b : BitVec 3) (y : BitVec 15) (s : State) : (captureUnused b y s).a = s.a := by unfold captureUnused; simp only []; split <;> simp
@[simp] theorem captureUnused_q (b : BitVec 3) (y : BitVec 15) (s : State) : (captureUnused b y s).q = s.q := by unfold captureUnused; simp only []; split <;> simp
@[simp] theorem captureUnused_bExec (b : BitVec 3) (y : BitVec 15) (s : State) : (captureUnused b y s).bExec = s.bExec := by unfold captureUnused; simp only []; split <;> simp
@[simp] theorem captureUnused_bWork (b : BitVec 3) (y : BitVec 15) (s : State) : (captureUnused b y s).bWork = s.bWork := by unfold captureUnused; simp only []; split <;> simp
@[simp] theorem captureUnused_pc (b : BitVec 3) (y : BitVec 15) (s : State) : (captureUnused b y s).pc = s.pc := by unfold captureUnused; simp only []; split <;> simp
@[simp] theorem captureUnused_sel (b : BitVec 3) (y : BitVec 15) (s : State) : (captureUnused b y s).sel = s.sel := by unfold captureUnused; simp only []; split <;> simp
@[simp] theorem captureUnused_panel (b : BitVec 3) (y : BitVec 15) (s : State) : (captureUnused b y s).panel = s.panel := by unfold captureUnused; simp only []; split <;> simp
@[simp] theorem captureUnused_run (b : BitVec 3) (y : BitVec 15) (s : State) : (captureUnused b y s).run = s.run := by unfold captureUnused; simp only []; split <;> simp
@[simp] theorem captureUnused_lockout (b : BitVec 3) (y : BitVec 15) (s : State) : (captureUnused b y s).lockout = s.lockout := by unfold captureUnused; simp only []; split <;> simp
@[simp] theorem captureUnused_pending (b : BitVec 3) (y : BitVec 15) (s : State) : (captureUnused b y s).pending = s.pending := by unfold captureUnused; simp only []; split <;> simp
@[simp] theorem captureUnused_rep (b : BitVec 3) (y : BitVec 15) (s : State) : (captureUnused b y s).rep = s.rep := by unfold captureUnused; simp only []; split <;> simp
@[simp] theorem captureUnused_chans (b : BitVec 3) (y : BitVec 15) (s : State) : (captureUnused b y s).chans = s.chans := by unfold captureUnused; simp only []; split <;> simp
@[simp] theorem captureUnused_clk (b : BitVec 3) (y : BitVec 15) (s : State) : (captureUnused b y s).clk = s.clk := by unfold captureUnused; simp only []; split <;> simp
@[simp] theorem captureUnused_mem (b : BitVec 3) (y : BitVec 15) (s : State) : (captureUnused b y s).mem = s.mem := by unfold captureUnused; simp only []; split <;> simp
@[simp] theorem captureUnused_parity (b : BitVec 3) (y : BitVec 15) (s : State) : (captureUnused b y s).parity = s.parity := by unfold captureUnused; simp only []; split <;> simp
@[simp] theorem captureUnused_overlap (b : BitVec 3) (y : BitVec 15) (s : State) : (captureUnused b y s).overlap = s.overlap := by unfold captureUnused; simp only []; split <;> simp
@[simp] theorem captureUnused_fetch (b : BitVec 3) (y : BitVec 15) (s : State) : (captureUnused b y s).fetch = s.fetch := by unfold captureUnused; simp only []; split <;> simp
@[simp] theorem captureUnused_entryOpen (b : BitVec 3) (y : BitVec 15) (s : State) : (captureUnused b y s).entryOpen = s.entryOpen := by unfold captureUnused; simp only []; split <;> simp
@[simp] theorem captureUnused_outputs (b : BitVec 3) (y : BitVec 15) (s : State) : (captureUnused b y s).outputs = s.outputs := by unfold captureUnused; simp only []; split <;> simp
@[simp] theorem captureUnused_inputs (b : BitVec 3) (y : BitVec 15) (s : State) : (captureUnused b y s).inputs = s.inputs := by unfold captureUnused; simp only []; split <;> simp
@[simp] theorem captureUnused_cfg (b : BitVec 3) (y : BitVec 15) (s : State) : (captureUnused b y s).cfg = s.cfg := by unfold captureUnused; simp only []; split <;> simp

@[simp] theorem skipIf_a (c : Bool) (s : State) : (skipIf c s).a = s.a := by cases c <;> rfl
@[simp] theorem skipIf_q (c : Bool) (s : State) : (skipIf c s).q = s.q := by cases c <;> rfl
@[simp] theorem skipIf_bExec (c : Bool) (s : State) : (skipIf c s).bExec = s.bExec := by cases c <;> rfl
@[simp] theorem skipIf_bWork (c : Bool) (s : State) : (skipIf c s).bWork = s.bWork := by cases c <;> rfl
@[simp] theorem skipIf_ctl (c : Bool) (s : State) : (skipIf c s).ctl = s.ctl := by cases c <;> rfl
@[simp] theorem skipIf_sel (c : Bool) (s : State) : (skipIf c s).sel = s.sel := by cases c <;> rfl
@[simp] theorem skipIf_panel (c : Bool) (s : State) : (skipIf c s).panel = s.panel := by cases c <;> rfl
@[simp] theorem skipIf_run (c : Bool) (s : State) : (skipIf c s).run = s.run := by cases c <;> rfl
@[simp] theorem skipIf_lockout (c : Bool) (s : State) : (skipIf c s).lockout = s.lockout := by cases c <;> rfl
@[simp] theorem skipIf_pending (c : Bool) (s : State) : (skipIf c s).pending = s.pending := by cases c <;> rfl
@[simp] theorem skipIf_rep (c : Bool) (s : State) : (skipIf c s).rep = s.rep := by cases c <;> rfl
@[simp] theorem skipIf_chans (c : Bool) (s : State) : (skipIf c s).chans = s.chans := by cases c <;> rfl
@[simp] theorem skipIf_clk (c : Bool) (s : State) : (skipIf c s).clk = s.clk := by cases c <;> rfl
@[simp] theorem skipIf_mem (c : Bool) (s : State) : (skipIf c s).mem = s.mem := by cases c <;> rfl
@[simp] theorem skipIf_parity (c : Bool) (s : State) : (skipIf c s).parity = s.parity := by cases c <;> rfl
@[simp] theorem skipIf_overlap (c : Bool) (s : State) : (skipIf c s).overlap = s.overlap := by cases c <;> rfl
@[simp] theorem skipIf_fetch (c : Bool) (s : State) : (skipIf c s).fetch = s.fetch := by cases c <;> rfl
@[simp] theorem skipIf_entryOpen (c : Bool) (s : State) : (skipIf c s).entryOpen = s.entryOpen := by cases c <;> rfl
@[simp] theorem skipIf_outputs (c : Bool) (s : State) : (skipIf c s).outputs = s.outputs := by cases c <;> rfl
@[simp] theorem skipIf_inputs (c : Bool) (s : State) : (skipIf c s).inputs = s.inputs := by cases c <;> rfl
@[simp] theorem skipIf_cfg (c : Bool) (s : State) : (skipIf c s).cfg = s.cfg := by cases c <;> rfl
@[simp] theorem skipIf_free (c : Bool) (s : State) : (skipIf c s).free = s.free := by cases c <;> rfl

@[simp] theorem emit_a (x : Signal) (s : State) : (emit x s).a = s.a := rfl
@[simp] theorem emit_q (x : Signal) (s : State) : (emit x s).q = s.q := rfl
@[simp] theorem emit_bExec (x : Signal) (s : State) : (emit x s).bExec = s.bExec := rfl
@[simp] theorem emit_bWork (x : Signal) (s : State) : (emit x s).bWork = s.bWork := rfl
@[simp] theorem emit_pc (x : Signal) (s : State) : (emit x s).pc = s.pc := rfl
@[simp] theorem emit_ctl (x : Signal) (s : State) : (emit x s).ctl = s.ctl := rfl
@[simp] theorem emit_sel (x : Signal) (s : State) : (emit x s).sel = s.sel := rfl
@[simp] theorem emit_panel (x : Signal) (s : State) : (emit x s).panel = s.panel := rfl
@[simp] theorem emit_run (x : Signal) (s : State) : (emit x s).run = s.run := rfl
@[simp] theorem emit_lockout (x : Signal) (s : State) : (emit x s).lockout = s.lockout := rfl
@[simp] theorem emit_pending (x : Signal) (s : State) : (emit x s).pending = s.pending := rfl
@[simp] theorem emit_rep (x : Signal) (s : State) : (emit x s).rep = s.rep := rfl
@[simp] theorem emit_chans (x : Signal) (s : State) : (emit x s).chans = s.chans := rfl
@[simp] theorem emit_clk (x : Signal) (s : State) : (emit x s).clk = s.clk := rfl
@[simp] theorem emit_mem (x : Signal) (s : State) : (emit x s).mem = s.mem := rfl
@[simp] theorem emit_parity (x : Signal) (s : State) : (emit x s).parity = s.parity := rfl
@[simp] theorem emit_overlap (x : Signal) (s : State) : (emit x s).overlap = s.overlap := rfl
@[simp] theorem emit_fetch (x : Signal) (s : State) : (emit x s).fetch = s.fetch := rfl
@[simp] theorem emit_entryOpen (x : Signal) (s : State) : (emit x s).entryOpen = s.entryOpen := rfl
@[simp] theorem emit_inputs (x : Signal) (s : State) : (emit x s).inputs = s.inputs := rfl
@[simp] theorem emit_cfg (x : Signal) (s : State) : (emit x s).cfg = s.cfg := rfl
@[simp] theorem emit_free (x : Signal) (s : State) : (emit x s).free = s.free := rfl

@[simp] theorem putChan_a (c : Fin 24) (v : Channel) (s : State) : (putChan c v s).a = s.a := rfl
@[simp] theorem putChan_q (c : Fin 24) (v : Channel) (s : State) : (putChan c v s).q = s.q := rfl
@[simp] theorem putChan_bExec (c : Fin 24) (v : Channel) (s : State) : (putChan c v s).bExec = s.bExec := rfl
@[simp] theorem putChan_bWork (c : Fin 24) (v : Channel) (s : State) : (putChan c v s).bWork = s.bWork := rfl
@[simp] theorem putChan_pc (c : Fin 24) (v : Channel) (s : State) : (putChan c v s).pc = s.pc := rfl
@[simp] theorem putChan_ctl (c : Fin 24) (v : Channel) (s : State) : (putChan c v s).ctl = s.ctl := rfl
@[simp] theorem putChan_sel (c : Fin 24) (v : Channel) (s : State) : (putChan c v s).sel = s.sel := rfl
@[simp] theorem putChan_panel (c : Fin 24) (v : Channel) (s : State) : (putChan c v s).panel = s.panel := rfl
@[simp] theorem putChan_run (c : Fin 24) (v : Channel) (s : State) : (putChan c v s).run = s.run := rfl
@[simp] theorem putChan_lockout (c : Fin 24) (v : Channel) (s : State) : (putChan c v s).lockout = s.lockout := rfl
@[simp] theorem putChan_pending (c : Fin 24) (v : Channel) (s : State) : (putChan c v s).pending = s.pending := rfl
@[simp] theorem putChan_rep (c : Fin 24) (v : Channel) (s : State) : (putChan c v s).rep = s.rep := rfl
@[simp] theorem putChan_clk (c : Fin 24) (v : Channel) (s : State) : (putChan c v s).clk = s.clk := rfl
@[simp] theorem putChan_mem (c : Fin 24) (v : Channel) (s : State) : (putChan c v s).mem = s.mem := rfl
@[simp] theorem putChan_parity (c : Fin 24) (v : Channel) (s : State) : (putChan c v s).parity = s.parity := rfl
@[simp] theorem putChan_overlap (c : Fin 24) (v : Channel) (s : State) : (putChan c v s).overlap = s.overlap := rfl
@[simp] theorem putChan_fetch (c : Fin 24) (v : Channel) (s : State) : (putChan c v s).fetch = s.fetch := rfl
@[simp] theorem putChan_entryOpen (c : Fin 24) (v : Channel) (s : State) : (putChan c v s).entryOpen = s.entryOpen := rfl
@[simp] theorem putChan_outputs (c : Fin 24) (v : Channel) (s : State) : (putChan c v s).outputs = s.outputs := rfl
@[simp] theorem putChan_inputs (c : Fin 24) (v : Channel) (s : State) : (putChan c v s).inputs = s.inputs := rfl
@[simp] theorem putChan_cfg (c : Fin 24) (v : Channel) (s : State) : (putChan c v s).cfg = s.cfg := rfl
@[simp] theorem putChan_free (c : Fin 24) (v : Channel) (s : State) : (putChan c v s).free = s.free := rfl

@[simp] theorem storeWord_a (a : Addr) (p : Part) (v : Word) (s : State) : (storeWord a p v s).a = s.a := rfl
@[simp] theorem storeWord_q (a : Addr) (p : Part) (v : Word) (s : State) : (storeWord a p v s).q = s.q := rfl
@[simp] theorem storeWord_bExec (a : Addr) (p : Part) (v : Word) (s : State) : (storeWord a p v s).bExec = s.bExec := rfl
@[simp] theorem storeWord_bWork (a : Addr) (p : Part) (v : Word) (s : State) : (storeWord a p v s).bWork = s.bWork := rfl
@[simp] theorem storeWord_pc (a : Addr) (p : Part) (v : Word) (s : State) : (storeWord a p v s).pc = s.pc := rfl
@[simp] theorem storeWord_ctl (a : Addr) (p : Part) (v : Word) (s : State) : (storeWord a p v s).ctl = s.ctl := rfl
@[simp] theorem storeWord_sel (a : Addr) (p : Part) (v : Word) (s : State) : (storeWord a p v s).sel = s.sel := rfl
@[simp] theorem storeWord_panel (a : Addr) (p : Part) (v : Word) (s : State) : (storeWord a p v s).panel = s.panel := rfl
@[simp] theorem storeWord_run (a : Addr) (p : Part) (v : Word) (s : State) : (storeWord a p v s).run = s.run := rfl
@[simp] theorem storeWord_lockout (a : Addr) (p : Part) (v : Word) (s : State) : (storeWord a p v s).lockout = s.lockout := rfl
@[simp] theorem storeWord_pending (a : Addr) (p : Part) (v : Word) (s : State) : (storeWord a p v s).pending = s.pending := rfl
@[simp] theorem storeWord_rep (a : Addr) (p : Part) (v : Word) (s : State) : (storeWord a p v s).rep = s.rep := rfl
@[simp] theorem storeWord_chans (a : Addr) (p : Part) (v : Word) (s : State) : (storeWord a p v s).chans = s.chans := rfl
@[simp] theorem storeWord_clk (a : Addr) (p : Part) (v : Word) (s : State) : (storeWord a p v s).clk = s.clk := rfl
@[simp] theorem storeWord_fetch (a : Addr) (p : Part) (v : Word) (s : State) : (storeWord a p v s).fetch = s.fetch := rfl
@[simp] theorem storeWord_entryOpen (a : Addr) (p : Part) (v : Word) (s : State) : (storeWord a p v s).entryOpen = s.entryOpen := rfl
@[simp] theorem storeWord_outputs (a : Addr) (p : Part) (v : Word) (s : State) : (storeWord a p v s).outputs = s.outputs := rfl
@[simp] theorem storeWord_inputs (a : Addr) (p : Part) (v : Word) (s : State) : (storeWord a p v s).inputs = s.inputs := rfl
@[simp] theorem storeWord_cfg (a : Addr) (p : Part) (v : Word) (s : State) : (storeWord a p v s).cfg = s.cfg := rfl
@[simp] theorem storeWord_free (a : Addr) (p : Part) (v : Word) (s : State) : (storeWord a p v s).free = s.free := rfl

@[simp] theorem putBSet_a (c : BView) (r : BSet) (s : State) : (putBSet c r s).a = s.a := by unfold putBSet; split <;> rfl
@[simp] theorem putBSet_q (c : BView) (r : BSet) (s : State) : (putBSet c r s).q = s.q := by unfold putBSet; split <;> rfl
@[simp] theorem putBSet_pc (c : BView) (r : BSet) (s : State) : (putBSet c r s).pc = s.pc := by unfold putBSet; split <;> rfl
@[simp] theorem putBSet_ctl (c : BView) (r : BSet) (s : State) : (putBSet c r s).ctl = s.ctl := by unfold putBSet; split <;> rfl
@[simp] theorem putBSet_sel (c : BView) (r : BSet) (s : State) : (putBSet c r s).sel = s.sel := by unfold putBSet; split <;> rfl
@[simp] theorem putBSet_panel (c : BView) (r : BSet) (s : State) : (putBSet c r s).panel = s.panel := by unfold putBSet; split <;> rfl
@[simp] theorem putBSet_run (c : BView) (r : BSet) (s : State) : (putBSet c r s).run = s.run := by unfold putBSet; split <;> rfl
@[simp] theorem putBSet_lockout (c : BView) (r : BSet) (s : State) : (putBSet c r s).lockout = s.lockout := by unfold putBSet; split <;> rfl
@[simp] theorem putBSet_pending (c : BView) (r : BSet) (s : State) : (putBSet c r s).pending = s.pending := by unfold putBSet; split <;> rfl
@[simp] theorem putBSet_rep (c : BView) (r : BSet) (s : State) : (putBSet c r s).rep = s.rep := by unfold putBSet; split <;> rfl
@[simp] theorem putBSet_chans (c : BView) (r : BSet) (s : State) : (putBSet c r s).chans = s.chans := by unfold putBSet; split <;> rfl
@[simp] theorem putBSet_clk (c : BView) (r : BSet) (s : State) : (putBSet c r s).clk = s.clk := by unfold putBSet; split <;> rfl
@[simp] theorem putBSet_mem (c : BView) (r : BSet) (s : State) : (putBSet c r s).mem = s.mem := by unfold putBSet; split <;> rfl
@[simp] theorem putBSet_parity (c : BView) (r : BSet) (s : State) : (putBSet c r s).parity = s.parity := by unfold putBSet; split <;> rfl
@[simp] theorem putBSet_overlap (c : BView) (r : BSet) (s : State) : (putBSet c r s).overlap = s.overlap := by unfold putBSet; split <;> rfl
@[simp] theorem putBSet_fetch (c : BView) (r : BSet) (s : State) : (putBSet c r s).fetch = s.fetch := by unfold putBSet; split <;> rfl
@[simp] theorem putBSet_entryOpen (c : BView) (r : BSet) (s : State) : (putBSet c r s).entryOpen = s.entryOpen := by unfold putBSet; split <;> rfl
@[simp] theorem putBSet_outputs (c : BView) (r : BSet) (s : State) : (putBSet c r s).outputs = s.outputs := by unfold putBSet; split <;> rfl
@[simp] theorem putBSet_inputs (c : BView) (r : BSet) (s : State) : (putBSet c r s).inputs = s.inputs := by unfold putBSet; split <;> rfl
@[simp] theorem putBSet_cfg (c : BView) (r : BSet) (s : State) : (putBSet c r s).cfg = s.cfg := by unfold putBSet; split <;> rfl
@[simp] theorem putBSet_free (c : BView) (r : BSet) (s : State) : (putBSet c r s).free = s.free := by unfold putBSet; split <;> rfl

@[simp] theorem loadPc_a (a : Addr) (s : State) : (loadPc a s).a = s.a := by unfold loadPc; simp only []; split <;> rfl
@[simp] theorem loadPc_q (a : Addr) (s : State) : (loadPc a s).q = s.q := by unfold loadPc; simp only []; split <;> rfl
@[simp] theorem loadPc_bExec (a : Addr) (s : State) : (loadPc a s).bExec = s.bExec := by unfold loadPc; simp only []; split <;> rfl
@[simp] theorem loadPc_bWork (a : Addr) (s : State) : (loadPc a s).bWork = s.bWork := by unfold loadPc; simp only []; split <;> rfl
@[simp] theorem loadPc_sel (a : Addr) (s : State) : (loadPc a s).sel = s.sel := by unfold loadPc; simp only []; split <;> rfl
@[simp] theorem loadPc_panel (a : Addr) (s : State) : (loadPc a s).panel = s.panel := by unfold loadPc; simp only []; split <;> rfl
@[simp] theorem loadPc_run (a : Addr) (s : State) : (loadPc a s).run = s.run := by unfold loadPc; simp only []; split <;> rfl
@[simp] theorem loadPc_lockout (a : Addr) (s : State) : (loadPc a s).lockout = s.lockout := by unfold loadPc; simp only []; split <;> rfl
@[simp] theorem loadPc_pending (a : Addr) (s : State) : (loadPc a s).pending = s.pending := by unfold loadPc; simp only []; split <;> rfl
@[simp] theorem loadPc_chans (a : Addr) (s : State) : (loadPc a s).chans = s.chans := by unfold loadPc; simp only []; split <;> rfl
@[simp] theorem loadPc_clk (a : Addr) (s : State) : (loadPc a s).clk = s.clk := by unfold loadPc; simp only []; split <;> rfl
@[simp] theorem loadPc_mem (a : Addr) (s : State) : (loadPc a s).mem = s.mem := by unfold loadPc; simp only []; split <;> rfl
@[simp] theorem loadPc_parity (a : Addr) (s : State) : (loadPc a s).parity = s.parity := by unfold loadPc; simp only []; split <;> rfl
@[simp] theorem loadPc_overlap (a : Addr) (s : State) : (loadPc a s).overlap = s.overlap := by unfold loadPc; simp only []; split <;> rfl
@[simp] theorem loadPc_fetch (a : Addr) (s : State) : (loadPc a s).fetch = s.fetch := by unfold loadPc; simp only []; split <;> rfl
@[simp] theorem loadPc_entryOpen (a : Addr) (s : State) : (loadPc a s).entryOpen = s.entryOpen := by unfold loadPc; simp only []; split <;> rfl
@[simp] theorem loadPc_outputs (a : Addr) (s : State) : (loadPc a s).outputs = s.outputs := by unfold loadPc; simp only []; split <;> rfl
@[simp] theorem loadPc_inputs (a : Addr) (s : State) : (loadPc a s).inputs = s.inputs := by unfold loadPc; simp only []; split <;> rfl
@[simp] theorem loadPc_cfg (a : Addr) (s : State) : (loadPc a s).cfg = s.cfg := by unfold loadPc; simp only []; split <;> rfl
@[simp] theorem loadPc_free (a : Addr) (s : State) : (loadPc a s).free = s.free := by unfold loadPc; simp only []; split <;> rfl

@[simp] theorem releaseLockout_a (s : State) : (releaseLockout s).a = s.a := rfl
@[simp] theorem releaseLockout_q (s : State) : (releaseLockout s).q = s.q := rfl
@[simp] theorem releaseLockout_bExec (s : State) : (releaseLockout s).bExec = s.bExec := rfl
@[simp] theorem releaseLockout_bWork (s : State) : (releaseLockout s).bWork = s.bWork := rfl
@[simp] theorem releaseLockout_pc (s : State) : (releaseLockout s).pc = s.pc := rfl
@[simp] theorem releaseLockout_ctl (s : State) : (releaseLockout s).ctl = s.ctl := rfl
@[simp] theorem releaseLockout_panel (s : State) : (releaseLockout s).panel = s.panel := rfl
@[simp] theorem releaseLockout_run (s : State) : (releaseLockout s).run = s.run := rfl
@[simp] theorem releaseLockout_pending (s : State) : (releaseLockout s).pending = s.pending := rfl
@[simp] theorem releaseLockout_rep (s : State) : (releaseLockout s).rep = s.rep := rfl
@[simp] theorem releaseLockout_chans (s : State) : (releaseLockout s).chans = s.chans := rfl
@[simp] theorem releaseLockout_clk (s : State) : (releaseLockout s).clk = s.clk := rfl
@[simp] theorem releaseLockout_mem (s : State) : (releaseLockout s).mem = s.mem := rfl
@[simp] theorem releaseLockout_parity (s : State) : (releaseLockout s).parity = s.parity := rfl
@[simp] theorem releaseLockout_overlap (s : State) : (releaseLockout s).overlap = s.overlap := rfl
@[simp] theorem releaseLockout_fetch (s : State) : (releaseLockout s).fetch = s.fetch := rfl
@[simp] theorem releaseLockout_entryOpen (s : State) : (releaseLockout s).entryOpen = s.entryOpen := rfl
@[simp] theorem releaseLockout_outputs (s : State) : (releaseLockout s).outputs = s.outputs := rfl
@[simp] theorem releaseLockout_inputs (s : State) : (releaseLockout s).inputs = s.inputs := rfl
@[simp] theorem releaseLockout_cfg (s : State) : (releaseLockout s).cfg = s.cfg := rfl
@[simp] theorem releaseLockout_free (s : State) : (releaseLockout s).free = s.free := rfl

@[simp] theorem setLockout_a (s : State) : (setLockout s).a = s.a := by unfold setLockout; split <;> rfl
@[simp] theorem setLockout_q (s : State) : (setLockout s).q = s.q := by unfold setLockout; split <;> rfl
@[simp] theorem setLockout_bExec (s : State) : (setLockout s).bExec = s.bExec := by unfold setLockout; split <;> rfl
@[simp] theorem setLockout_bWork (s : State) : (setLockout s).bWork = s.bWork := by unfold setLockout; split <;> rfl
@[simp] theorem setLockout_pc (s : State) : (setLockout s).pc = s.pc := by unfold setLockout; split <;> rfl
@[simp] theorem setLockout_ctl (s : State) : (setLockout s).ctl = s.ctl := by unfold setLockout; split <;> rfl
@[simp] theorem setLockout_sel (s : State) : (setLockout s).sel = s.sel := by unfold setLockout; split <;> rfl
@[simp] theorem setLockout_panel (s : State) : (setLockout s).panel = s.panel := by unfold setLockout; split <;> rfl
@[simp] theorem setLockout_run (s : State) : (setLockout s).run = s.run := by unfold setLockout; split <;> rfl
@[simp] theorem setLockout_pending (s : State) : (setLockout s).pending = s.pending := by unfold setLockout; split <;> rfl
@[simp] theorem setLockout_rep (s : State) : (setLockout s).rep = s.rep := by unfold setLockout; split <;> rfl
@[simp] theorem setLockout_chans (s : State) : (setLockout s).chans = s.chans := by unfold setLockout; split <;> rfl
@[simp] theorem setLockout_clk (s : State) : (setLockout s).clk = s.clk := by unfold setLockout; split <;> rfl
@[simp] theorem setLockout_mem (s : State) : (setLockout s).mem = s.mem := by unfold setLockout; split <;> rfl
@[simp] theorem setLockout_parity (s : State) : (setLockout s).parity = s.parity := by unfold setLockout; split <;> rfl
@[simp] theorem setLockout_overlap (s : State) : (setLockout s).overlap = s.overlap := by unfold setLockout; split <;> rfl
@[simp] theorem setLockout_fetch (s : State) : (setLockout s).fetch = s.fetch := by unfold setLockout; split <;> rfl
@[simp] theorem setLockout_entryOpen (s : State) : (setLockout s).entryOpen = s.entryOpen := by unfold setLockout; split <;> rfl
@[simp] theorem setLockout_outputs (s : State) : (setLockout s).outputs = s.outputs := by unfold setLockout; split <;> rfl
@[simp] theorem setLockout_inputs (s : State) : (setLockout s).inputs = s.inputs := by unfold setLockout; split <;> rfl
@[simp] theorem setLockout_cfg (s : State) : (setLockout s).cfg = s.cfg := by unfold setLockout; split <;> rfl
@[simp] theorem setLockout_free (s : State) : (setLockout s).free = s.free := by unfold setLockout; split <;> rfl

@[simp] theorem stopCpu_a (s : State) : (stopCpu s).a = s.a := by unfold stopCpu; split <;> rfl
@[simp] theorem stopCpu_q (s : State) : (stopCpu s).q = s.q := by unfold stopCpu; split <;> rfl
@[simp] theorem stopCpu_bExec (s : State) : (stopCpu s).bExec = s.bExec := by unfold stopCpu; split <;> rfl
@[simp] theorem stopCpu_bWork (s : State) : (stopCpu s).bWork = s.bWork := by unfold stopCpu; split <;> rfl
@[simp] theorem stopCpu_pc (s : State) : (stopCpu s).pc = s.pc := by unfold stopCpu; split <;> rfl
@[simp] theorem stopCpu_ctl (s : State) : (stopCpu s).ctl = s.ctl := by unfold stopCpu; split <;> rfl
@[simp] theorem stopCpu_sel (s : State) : (stopCpu s).sel = s.sel := by unfold stopCpu; split <;> rfl
@[simp] theorem stopCpu_panel (s : State) : (stopCpu s).panel = s.panel := by unfold stopCpu; split <;> rfl
@[simp] theorem stopCpu_lockout (s : State) : (stopCpu s).lockout = s.lockout := by unfold stopCpu; split <;> rfl
@[simp] theorem stopCpu_pending (s : State) : (stopCpu s).pending = s.pending := by unfold stopCpu; split <;> rfl
@[simp] theorem stopCpu_rep (s : State) : (stopCpu s).rep = s.rep := by unfold stopCpu; split <;> rfl
@[simp] theorem stopCpu_chans (s : State) : (stopCpu s).chans = s.chans := by unfold stopCpu; split <;> rfl
@[simp] theorem stopCpu_clk (s : State) : (stopCpu s).clk = s.clk := by unfold stopCpu; split <;> rfl
@[simp] theorem stopCpu_mem (s : State) : (stopCpu s).mem = s.mem := by unfold stopCpu; split <;> rfl
@[simp] theorem stopCpu_parity (s : State) : (stopCpu s).parity = s.parity := by unfold stopCpu; split <;> rfl
@[simp] theorem stopCpu_overlap (s : State) : (stopCpu s).overlap = s.overlap := by unfold stopCpu; split <;> rfl
@[simp] theorem stopCpu_fetch (s : State) : (stopCpu s).fetch = s.fetch := by unfold stopCpu; split <;> rfl
@[simp] theorem stopCpu_entryOpen (s : State) : (stopCpu s).entryOpen = s.entryOpen := by unfold stopCpu; split <;> rfl
@[simp] theorem stopCpu_outputs (s : State) : (stopCpu s).outputs = s.outputs := by unfold stopCpu; split <;> rfl
@[simp] theorem stopCpu_inputs (s : State) : (stopCpu s).inputs = s.inputs := by unfold stopCpu; split <;> rfl
@[simp] theorem stopCpu_cfg (s : State) : (stopCpu s).cfg = s.cfg := by unfold stopCpu; split <;> rfl
@[simp] theorem stopCpu_free (s : State) : (stopCpu s).free = s.free := by unfold stopCpu; split <;> rfl

@[simp] theorem skipIf_pc (c : Bool) (s : State) : (skipIf c s).pc = pcAfter s c := by cases c <;> rfl

@[simp] theorem loadPc_pc (a : Addr) (s : State) : (loadPc a s).pc = a := by unfold loadPc; simp only []; split <;> rfl

/-- What a write of one part of a word leaves at every address. -/
theorem wordAt_storeWord (a x : Addr) (p : Part) (v : Word) (s : State) :
    wordAt (storeWord a p v s) x = if a = x then mergePart p (wordAt s a) v else wordAt s x := by
  unfold wordAt storeWord
  simp only [State.setOverlap_mem, State.setParity_mem, State.setMem_mem, Memory.get_set, BitVec.toNat_inj]
  rfl

theorem halfIndex_inj (a x : Addr) (u v : Bool) : halfIndex x v = halfIndex a u ↔ x = a ∧ v = u := by
  unfold halfIndex
  rw [← BitVec.toNat_inj]
  cases u <;> cases v <;> simp <;> omega

/-- A half-word is bad after another was mended iff it was bad before and is not that one. -/
theorem contains_mendHalf (l : List Nat) (a x : Addr) (u v : Bool) :
    (mendHalf l a u).contains (halfIndex x v) = (l.contains (halfIndex x v) && !(decide (x = a) && v == u)) := by
  unfold mendHalf
  rw [Bool.eq_iff_iff]
  simp only [List.contains_iff_mem, List.mem_filter, Bool.and_eq_true, bne_iff_ne, ne_eq, halfIndex_inj, Bool.not_eq_true',
    Bool.and_eq_false_iff, decide_eq_false_iff_not, beq_eq_false_iff_ne]
  tauto

/-- What a write of one part of a word leaves of the parity bits (20_memory.md R84, R125). -/
theorem storeWord_parity (a : Addr) (p : Part) (v : Word) (s : State) : ParityStored a p s (storeWord a p v s) := by
  intro x u
  unfold halfBad storeWord
  simp only [State.setOverlap_parity, State.setParity_parity]
  cases p <;> simp only [mendPart, contains_mendHalf, covers] <;> cases u <;> simp

/-! ## Conversion and capture -/

/-- A conversion leaves the state that `afterConvert` names. -/
theorem convert_snd (b : BitVec 3) (r : Addr) (s : State) : (convert b r s).2 = afterConvert s := by
  unfold convert afterConvert; cases h : s.ctl.newIfr <;> simp

/-- The first conversion after 7761 is not checked, every other is. -/
theorem convert_checked (b : BitVec 3) (r : Addr) (s : State) : (convert b r s).1.checked = decide (s.ctl.newIfr ≠ .due) := by
  unfold convert; cases h : s.ctl.newIfr <;> simp

/-- A captured f1 changes nothing of the IFR but f1. -/
theorem capture_ctl (v : Addr) (s : State) :
    (capture v s).ctl = if f1Inhibited s then s.ctl else { s.ctl with ifr := withF1 s.ctl.ifr v } := by
  unfold capture; split <;> rfl

theorem withF1_high (w : Word) (v : Addr) : (withF1 w v).extractLsb' 17 13 = w.extractLsb' 17 13 := by
  ext i hi
  simp only [BitVec.getElem_extractLsb']
  change BitVec.getLsbD ((w.extractLsb' 17 13 ++ v : BitVec (13 + 17))) (17 + i) = _
  rw [BitVec.getLsbD_append]
  simp [hi]

/-- Where a checked conversion was made the protection modes are those of the state before it. -/
theorem checked_modes (b : BitVec 3) (r v : Addr) (s : State) (h : (convert b r s).1.checked = true) (cap : Bool) :
    let s1 := if cap then capture v (afterConvert s) else afterConvert s
    readProtected s1 = readProtected s ∧ writeProtected s1 = writeProtected s ∧
      (s1.ctl.plrLL = s.ctl.plrLL ∧ s1.ctl.plrUL = s.ctl.plrUL) := by
  rw [convert_checked] at h
  have h' : s.ctl.newIfr ≠ .due := by simpa using h
  have e : afterConvert s = s := by simp [afterConvert, h']
  have key : ∀ w : Word, w.extractLsb' 17 13 = s.ctl.ifr.extractLsb' 17 13 → w.extractLsb' 21 2 = s.ctl.ifr.extractLsb' 21 2 := by
    intro w hw
    ext i hi
    have := congrArg (fun x => x.getLsbD (4 + i)) hw
    simp only [BitVec.getLsbD_extractLsb'] at this
    have h4 : 4 + i < 13 := by omega
    simp only [h4, decide_true, Bool.true_and] at this
    simp only [BitVec.getElem_extractLsb']
    have e1 : 21 + i = 17 + (4 + i) := by omega
    rw [e1]; exact this
  simp only [e]
  cases cap
  · simp
  · simp only [if_true]
    unfold readProtected writeProtected protField govIfr
    simp only [capture_ctl]
    split <;> simp
    cases s.ctl.newIfr <;> simp [key _ (withF1_high _ _)]

/-! ## References -/

theorem cpuRead_ok (a : Addr) (s : State) (h : installed s a = true) (hp : wordBad s a = false) : cpuRead a s = .ok (wordAt s a) s := by
  simp [cpuRead, h, hp]

theorem cpuWrite_ok (a : Addr) (p : Part) (v : Word) (s : State) (h : installed s a = true) (hp : testReadBad s a p = false) :
    cpuWrite a p v s = .ok () (storeWord a p v s) := by
  simp [cpuWrite, h, hp]

/-- A protected read of a word that can be read answers the word and leaves the state. -/
theorem readAt_ok (o : OpAddr) (report : Bool) (n : Nat) (s : State) (h : canRead o n s = true) :
    readAt o report n s = .ok (wordAt s (o.word n)) s := by
  simp only [canRead, Bool.and_eq_true, Bool.or_eq_true, Bool.not_eq_true'] at h
  obtain ⟨⟨hi, hp⟩, hl⟩ := h
  have : (o.checked && readProtected s && !inside s (o.word n)) = false := by
    rcases hl with hl | hl <;> simp_all
  simp only [readAt, this]
  exact cpuRead_ok _ _ hi hp

/-- A protected write of a word that can be written leaves the stored word. -/
theorem writeAt_ok (o : OpAddr) (report : Bool) (n : Nat) (p : Part) (v : Word) (f : State → State) (s : State)
    (h : canWrite o n p s = true) : writeAt o report n p v f s = .ok () (storeWord (o.word n) p v s) := by
  simp only [canWrite, Bool.and_eq_true, Bool.or_eq_true, Bool.not_eq_true'] at h
  obtain ⟨⟨hi, hp⟩, hl⟩ := h
  have : (o.checked && writeProtected s && !inside s (o.word n)) = false := by
    rcases hl with hl | hl <;> simp_all
  simp only [writeAt, this]
  exact cpuWrite_ok _ _ _ _ hi hp

/-! ## Operands -/

theorem operandAddr_eq (cap : Bool) (b : BitVec 3) (y : BitVec 15) (s : State) :
    operandAddr cap b y s = (opAddr b y s, if cap then noteStorage b y s else afterConvert s) := by
  unfold operandAddr opAddr noteStorage
  have h := convert_snd b (effective b y s) s
  cases hc : convert b (effective b y s) s with
  | mk o s1 => rw [hc] at h; simp only at h; subst h; cases cap <;> simp [opAddr, hc]

/-- What can be read before the address is noted can be read after. -/
theorem canRead_noted (b : BitVec 3) (y : BitVec 15) (n : Nat) (cap : Bool) (s : State) (h : canRead (opAddr b y s) n s = true) :
    canRead (opAddr b y s) n (if cap then noteStorage b y s else afterConvert s) = true := by
  have hm := checked_modes b (effective b y s) (opAddr b y s).base s
  unfold canRead at *
  simp only [Bool.and_eq_true, Bool.or_eq_true, Bool.not_eq_true'] at *
  obtain ⟨⟨hi, hp⟩, hl⟩ := h
  refine ⟨⟨?_, ?_⟩, ?_⟩
  · cases cap <;> simpa [installed, noteStorage] using hi
  · cases cap <;> simpa [wordBad, halfBad, noteStorage] using hp
  · by_cases hc : (opAddr b y s).checked = true
    · obtain ⟨h1, -, h2, h3⟩ := hm hc cap
      have e : (if cap then noteStorage b y s else afterConvert s)
          = (if cap then capture (opAddr b y s).base (afterConvert s) else afterConvert s) := rfl
      rw [e]
      simp only [inside] at *
      rw [h1, h2, h3]; exact hl
    · left; simp [hc]

/-- The same for a write. -/
theorem canWrite_noted (b : BitVec 3) (y : BitVec 15) (n : Nat) (p : Part) (cap : Bool) (s : State)
    (h : canWrite (opAddr b y s) n p s = true) :
    canWrite (opAddr b y s) n p (if cap then noteStorage b y s else afterConvert s) = true := by
  have hm := checked_modes b (effective b y s) (opAddr b y s).base s
  unfold canWrite at *
  simp only [Bool.and_eq_true, Bool.or_eq_true, Bool.not_eq_true'] at *
  obtain ⟨⟨hi, hp⟩, hl⟩ := h
  refine ⟨⟨?_, ?_⟩, ?_⟩
  · cases cap <;> simpa [installed, noteStorage] using hi
  · cases cap <;> cases p <;> simpa [testReadBad, halfBad, noteStorage] using hp
  · by_cases hc : (opAddr b y s).checked = true
    · obtain ⟨-, h1, h2, h3⟩ := hm hc cap
      have e : (if cap then noteStorage b y s else afterConvert s)
          = (if cap then capture (opAddr b y s).base (afterConvert s) else afterConvert s) := rfl
      rw [e]
      simp only [inside] at *
      rw [h1, h2, h3]; exact hl
    · left; simp [hc]

/-- A read-class operand that can be had is the operand of Table 4-1. -/
theorem readOperand_ok (k b : BitVec 3) (y : BitVec 15) (s : State) (h : operandReadable k b y s = true) :
    readOperand true k b y s = .ok (operandValue k b y s) (operandNote k b y s) := by
  by_cases hk : immediateK k = true
  · have : k = 0#3 ∨ k = 4#3 ∨ k = 7#3 := by
      simpa [immediateK, or_assoc] using hk
    rcases this with rfl | rfl | rfl
    · simp [readOperand, dataOperand, operandValue, operandNote, noteData]
    · simp [readOperand, dataOperand, operandValue, operandNote, noteData, sextHalf]; rfl
    · simp [readOperand, operandValue, operandNote]
  · have hr : canRead (opAddr b y s) 0 s = true := by simpa [operandReadable, hk] using h
    have hr' := canRead_noted b y 0 true s hr
    simp only [if_true] at hr'
    have hw : wordAt (noteStorage b y s) ((opAddr b y s).word 0) = wordAt s ((opAddr b y s).word 0) := by
      simp [wordAt, noteStorage]
    have hcase : k = 1#3 ∨ k = 2#3 ∨ k = 3#3 ∨ k = 5#3 ∨ k = 6#3 := by
      clear h; revert k; decide
    have hrd := readAt_ok _ true 0 _ hr'
    rw [hw] at hrd
    rcases hcase with rfl | rfl | rfl | rfl | rfl <;>
      simp [readOperand, operandAddr_eq, hrd, operandValue, operandNote, selectPart, zextHalf, sextHalf, lowerHalf, upperHalf]

/-- The one-word operand of a 77 word. -/
theorem readWord_ok (b : BitVec 3) (y : BitVec 15) (s : State) (h : canRead (opAddr b y s) 0 s = true) :
    readWord b y s = .ok (operandWord b y 0 s) (noteStorage b y s) := by
  have hr := canRead_noted b y 0 true s h
  simp only [if_true] at hr
  have hw : wordAt (noteStorage b y s) ((opAddr b y s).word 0) = wordAt s ((opAddr b y s).word 0) := by
    simp [wordAt, noteStorage]
  simp [readWord, operandAddr_eq, readAt_ok _ true 0 _ hr, operandWord, hw]

/-- The two-word operand of a 77 word. -/
theorem readDouble_ok (b : BitVec 3) (y : BitVec 15) (s : State) (h : doubleReadable b y s = true) :
    readDouble b y s = .ok (doubleValue b y s) (noteStorage b y s) := by
  simp only [doubleReadable, Bool.and_eq_true] at h
  have h0 := canRead_noted b y 0 true s h.1
  have h1 := canRead_noted b y 1 true s h.2
  simp only [if_true] at h0 h1
  have hw : ∀ a, wordAt (noteStorage b y s) a = wordAt s a := by intro a; simp [wordAt, noteStorage]
  simp [readDouble, operandAddr_eq, readAt_ok _ true 0 _ h0, readAt_ok _ true 1 _ h1, doubleValue, hw]

/-! ## Interrupt entry -/

/-- What every interrupt leaves (60_exceptions.md R541 steps 2 to 6). -/
theorem enter_modes (x : Interrupt) (addr : Option Addr) (s : State) :
    (enter x addr s).ctl.ifrHold = true ∧ (enter x addr s).ctl.ifrActive = false ∧ (enter x addr s).ctl.rirActive = false ∧
      (enter x addr s).ctl.newIfr = .settled ∧ (enter x addr s).ctl.reinit = false ∧ (enter x addr s).rep.active = false ∧
      (enter x addr s).lockout = { locked := true, bySil := false, silTimer := 0 } ∧
      (enter x addr s).fetch = .fixed (x.location s.cfg) ∧ (enter x addr s).entryOpen = true :=
  ⟨rfl, rfl, rfl, rfl, rfl, rfl, rfl, rfl, rfl⟩

end Sys2Proof.Machine
end

