-- ==== Sys2Proof/Laws/Decimal.lean ====
section
/-! SUPPORT. Decimal words bit by bit and digit by digit, the common procedure `dadd`, and the designators f5 and f4. -/

namespace Sys2Proof.Machine

open Sys2Proof

/-- The character of `decJoin` at place n. -/
def decPiece (z : DWord) (plus : Bool) (d : Nat → Nat) (n : Nat) : BitVec 6 :=
  if n = 0 then decLowChar z plus (d 0) else decChar z n (d n)

/-- Every bit of a joined word comes from the character of its place. -/
theorem decJoin_getLsbD (z : DWord) (plus : Bool) (d : Nat → Nat) (i : Nat) (h : i < 60) :
    (decJoin z plus d).getLsbD i = (decPiece z plus d (i / 6)).getLsbD (i % 6) := by
  unfold decJoin
  generalize e9 : decChar z 9 (d 9) = c9
  generalize e8 : decChar z 8 (d 8) = c8
  generalize e7 : decChar z 7 (d 7) = c7
  generalize e6 : decChar z 6 (d 6) = c6
  generalize e5 : decChar z 5 (d 5) = c5
  generalize e4 : decChar z 4 (d 4) = c4
  generalize e3 : decChar z 3 (d 3) = c3
  generalize e2 : decChar z 2 (d 2) = c2
  generalize e1 : decChar z 1 (d 1) = c1
  generalize e0 : decLowChar z plus (d 0) = c0
  change BitVec.getLsbD ((c9 ++ c8 ++ c7 ++ c6 ++ c5 ++ c4 ++ c3 ++ c2 ++ c1 ++ c0 : BitVec (6+6+6+6+6+6+6+6+6+6))) i = _
  simp only [BitVec.getLsbD_append]
  have hm : i % 6 < 6 := Nat.mod_lt _ (by decide)
  have hd := Nat.div_add_mod i 6
  have hq : i / 6 = 0 ∨ i / 6 = 1 ∨ i / 6 = 2 ∨ i / 6 = 3 ∨ i / 6 = 4 ∨ i / 6 = 5 ∨ i / 6 = 6 ∨ i / 6 = 7 ∨ i / 6 = 8 ∨
      i / 6 = 9 := by omega
  subst e0 e1 e2 e3 e4 e5 e6 e7 e8 e9
  rcases hq with hq | hq | hq | hq | hq | hq | hq | hq | hq | hq <;> rw [hq] at hd ⊢
  all_goals
    repeat rw [if_neg (by omega)]
    try rw [if_pos (by omega)]
    refine congrArg (BitVec.getLsbD _) ?_
    omega

/-- The bits of a character: the digit below, the zone above. -/
theorem decChar_getLsbD (z : DWord) (n d i : Nat) (hi : i < 6) :
    (decChar z n d).getLsbD i = if i < 4 then d.testBit i else z.getLsbD (6 * n + i) := by
  unfold decChar
  change BitVec.getLsbD ((z.extractLsb' (6*n+4) 2 ++ BitVec.ofNat 4 d : BitVec (2+4))) i = _
  rw [BitVec.getLsbD_append]
  split
  · rw [BitVec.getLsbD_ofNat]; simp [*]
  · rw [BitVec.getLsbD_extractLsb']; rw [show 6*n+4+(i-4) = 6*n+i by omega]; simp; omega

/-- The bits of the lowest character: the digit, the sign, the zone. -/
theorem decLowChar_getLsbD (z : DWord) (p : Bool) (d i : Nat) (hi : i < 6) :
    (decLowChar z p d).getLsbD i = if i < 4 then d.testBit i else if i = 4 then p else z.getLsbD 5 := by
  unfold decLowChar
  change BitVec.getLsbD ((z.extractLsb' 5 1 ++ BitVec.ofBool p ++ BitVec.ofNat 4 d : BitVec (1+1+4))) i = _
  rw [BitVec.getLsbD_append, BitVec.getLsbD_append]
  split
  · rw [BitVec.getLsbD_ofNat]; simp [*]
  · split
    · rw [show i = 4 by omega]; simp
    · rw [show i = 5 by omega]; simp

/-- A joined word keeps the zones. -/
theorem decJoin_zones (z : DWord) (p : Bool) (d : Nat → Nat) : ∀ i < 10,
    (decJoin z p d).getLsbD (6 * i + 5) = z.getLsbD (6 * i + 5) ∧
    (i ≠ 0 → (decJoin z p d).getLsbD (6 * i + 4) = z.getLsbD (6 * i + 4)) := by
  intro i hi
  constructor
  · rw [decJoin_getLsbD _ _ _ _ (by omega), show (6*i+5)/6 = i by omega, show (6*i+5)%6 = 5 by omega]
    unfold decPiece; split
    · subst_vars; rw [decLowChar_getLsbD _ _ _ _ (by omega)]; simp
    · rw [decChar_getLsbD _ _ _ _ (by omega)]; simp
  · intro h
    rw [decJoin_getLsbD _ _ _ _ (by omega), show (6*i+4)/6 = i by omega, show (6*i+4)%6 = 4 by omega]
    unfold decPiece; rw [if_neg h, decChar_getLsbD _ _ _ _ (by omega)]; simp

/-- A joined word has the sign given. -/
theorem decJoin_sign (z : DWord) (p : Bool) (d : Nat → Nat) : (decJoin z p d).getLsbD 4 = p := by
  rw [decJoin_getLsbD _ _ _ _ (by omega)]
  simp only [decPiece]
  rw [if_pos (by decide), decLowChar_getLsbD _ _ _ _ (by omega)]
  simp

/-- A joined word has the digits given. -/
theorem digitAt_decJoin (z : DWord) (p : Bool) (d : Nat → Nat) (i : Nat) (hi : i < 10) (hd : d i < 16) :
    digitAt (decJoin z p d) i = d i := by
  unfold digitAt
  have : (decJoin z p d).extractLsb' (6*i) 4 = BitVec.ofNat 4 (d i) := by
    apply BitVec.eq_of_getLsbD_eq; intro n hn
    rw [BitVec.getLsbD_extractLsb', decJoin_getLsbD _ _ _ _ (by omega), show (6*i+n)/6 = i by omega, show (6*i+n)%6 = n by omega]
    unfold decPiece; split
    · subst_vars; rw [decLowChar_getLsbD _ _ _ _ (by omega), BitVec.getLsbD_ofNat]; simp [hn]
    · rw [decChar_getLsbD _ _ _ _ (by omega), BitVec.getLsbD_ofNat]; simp [hn]
  rw [this]; simp; omega

/-- Packing keeps the lowest n digits of a magnitude. -/
theorem decMagOf_decPack (z : DWord) (p : Bool) (m : Nat) : ∀ n ≤ 10, decMagOf (decPack z p m) n = m % 10 ^ n := by
  intro n
  induction n with
  | zero => intro _; simp [decMagOf, Nat.mod_one]
  | succ n ih =>
    intro h
    rw [decMagOf, ih (by omega)]
    have : digitAt (decPack z p m) n = m / 10 ^ n % 10 := digitAt_decJoin _ _ _ n (by omega) (by omega)
    rw [this, Nat.pow_succ, Nat.mod_mul, Nat.mul_comm (10^n)]

/-- Packed digits are digits. -/
theorem decValid_decPack (z : DWord) (p : Bool) (m : Nat) : decValid (decPack z p m) = true := by
  unfold decValid
  rw [List.all_eq_true]
  intro i hi
  have hi : i < 10 := by simpa using hi
  have : digitAt (decPack z p m) i = m / 10 ^ i % 10 := digitAt_decJoin _ _ _ i (by omega) (by omega)
  rw [this]; simp; omega

/-- n digits are below 10^n. -/
theorem decMagOf_lt (x : DWord) (hv : decValid x = true) : ∀ n ≤ 10, decMagOf x n < 10 ^ n := by
  intro n
  induction n with
  | zero => intro _; simp [decMagOf]
  | succ n ih =>
    intro h
    have h1 := ih (by omega)
    unfold decValid at hv; rw [List.all_eq_true] at hv
    have h2 := hv n (by simp; omega)
    simp at h2
    rw [decMagOf, Nat.pow_succ]
    have : digitAt x n * 10^n ≤ 9 * 10^n := Nat.mul_le_mul_right _ h2
    omega

/-- Ten digits are below 10^10 (44_arith_decimal.md R322). -/
theorem decMag_lt (x : DWord) (hv : decValid x = true) : decMag x < 10 ^ 10 := decMagOf_lt x hv 10 (by omega)

/-- Packing keeps a magnitude modulo 10^10. -/
theorem decMag_decPack (z : DWord) (p : Bool) (m : Nat) : decMag (decPack z p m) = m % 10^10 := decMagOf_decPack z p m 10 (by omega)

/-- A write of f5 changes bit 24 alone. -/
theorem withF5_getLsbD (w : Word) (v : Bool) (i : Nat) (hi : i < 30) :
    (withF5 w v).getLsbD i = if i = 24 then v else w.getLsbD i := by
  change BitVec.getLsbD ((w.extractLsb' 25 5 ++ BitVec.ofBool v ++ w.extractLsb' 0 24 : BitVec (5 + 1 + 24))) i = _
  rw [BitVec.getLsbD_append, BitVec.getLsbD_append]
  by_cases h : i < 24
  · rw [if_pos h, BitVec.getLsbD_extractLsb', if_neg (by omega)]; simp [h]
  · rw [if_neg h]
    by_cases h2 : i = 24
    · subst h2; simp
    · rw [if_neg (by omega), if_neg h2, BitVec.getLsbD_extractLsb', show 25 + (i - 24 - 1) = i by omega]; simp; omega

/-- A write of f4 changes bit 23 alone. -/
theorem withF4_getLsbD (w : Word) (v : Bool) (i : Nat) (hi : i < 30) :
    (withF4 w v).getLsbD i = if i = 23 then v else w.getLsbD i := by
  change BitVec.getLsbD ((w.extractLsb' 24 6 ++ BitVec.ofBool v ++ w.extractLsb' 0 23 : BitVec (6 + 1 + 23))) i = _
  rw [BitVec.getLsbD_append, BitVec.getLsbD_append]
  by_cases h : i < 23
  · rw [if_pos h, BitVec.getLsbD_extractLsb', if_neg (by omega)]; simp [h]
  · rw [if_neg h]
    by_cases h2 : i = 23
    · subst h2; simp
    · rw [if_neg (by omega), if_neg h2, BitVec.getLsbD_extractLsb', show 24 + (i - 23 - 1) = i by omega]; simp; omega

/-- `dadd` on like signs (R333). -/
theorem decSum_like (x m : DWord) (p cc multi : Bool) (h : decPlus x = p) :
    decSum x m p cc multi = ⟨decide (10 ^ 10 ≤ decMag x + decMag m + cc.toNat), p, (decMag x + decMag m + cc.toNat) % 10 ^ 10⟩ := by
  unfold decSum; rw [if_pos (by rw [h]; simp)]; simp only [h]

/-- `dadd` on unlike signs (R333, D26). -/
theorem decSum_unlike (x m : DWord) (p cc multi : Bool) (h : decPlus x ≠ p) (ha : decMag x < 10 ^ 10) :
    decSum x m p cc multi =
      if 10 ^ 10 ≤ (if multi then 10 ^ 10 - 1 else 10 ^ 10) - decMag x + decMag m + cc.toNat then
        ⟨true, p, (if multi then 10 ^ 10 - 1 else 10 ^ 10) - decMag x + decMag m + cc.toNat - 10 ^ 10⟩
      else ⟨false, decPlus x, (if multi then 10 ^ 10 - 1 else 10 ^ 10) -
        ((if multi then 10 ^ 10 - 1 else 10 ^ 10) - decMag x + decMag m + cc.toNat)⟩ := by
  unfold decSum; rw [if_neg (by simpa using h)]
  unfold nines tens
  generalize (10 : Nat) ^ 10 = N at *
  have : ∀ t, N - decMag x + decMag m + cc.toNat = t → t < N → (N - t) % N = N - t := by
    intro t ht _; exact Nat.mod_eq_of_lt (by omega)
  cases multi
  · simp only [Bool.false_eq_true, if_false]; split
    · rfl
    · rw [this _ rfl (by omega)]
  · simp only [if_true]

end Sys2Proof.Machine
end

