-- ==== Sys2Proof/Laws/Encoding.lean ====
section
/-! SUPPORT. The fields of an encoded word are the fields it was written from. -/

namespace Sys2Proof

theorem extract_low {m n : Nat} (x : BitVec m) (z : BitVec n) : (x ++ z).extractLsb' 0 n = z := by
  ext i hi
  simp [BitVec.getElem_extractLsb', BitVec.getLsbD_append, hi]

theorem extract_high {m n : Nat} (x : BitVec m) (z : BitVec n) (s w : Nat) (h : n ≤ s) :
    (x ++ z).extractLsb' s w = x.extractLsb' (s - n) w := by
  ext i hi
  have e : ¬ s + i < n := by omega
  have e2 : s + i - n = s - n + i := by omega
  simp [BitVec.getElem_extractLsb', BitVec.getLsbD_append, e, e2]

theorem extract_all {m : Nat} (x : BitVec m) : x.extractLsb' 0 m = x := by
  ext i hi; simp [BitVec.getElem_extractLsb']

theorem extract_append_exact {m n : Nat} (x : BitVec m) (z : BitVec n) : (x ++ z).extractLsb' n m = x := by
  rw [extract_high _ _ _ _ le_rfl, Nat.sub_self, extract_all]

theorem fieldF_normalWord (f : BitVec 6) (j k b : BitVec 3) (y : BitVec 15) : fieldF (normalWord f j k b y) = f := by
  unfold fieldF normalWord
  rw [extract_high _ y 24 6 (by decide), extract_high _ b 9 6 (by decide), extract_high _ k 6 6 (by decide)]
  exact extract_append_exact f j

theorem fieldJ_normalWord (f : BitVec 6) (j k b : BitVec 3) (y : BitVec 15) : fieldJ (normalWord f j k b y) = j := by
  unfold fieldJ normalWord
  rw [extract_high _ y 21 3 (by decide), extract_high _ b 6 3 (by decide), extract_high _ k 3 3 (by decide)]
  exact extract_low f j

theorem fieldK_normalWord (f : BitVec 6) (j k b : BitVec 3) (y : BitVec 15) : fieldK (normalWord f j k b y) = k := by
  unfold fieldK normalWord
  rw [extract_high _ y 18 3 (by decide), extract_high _ b 3 3 (by decide)]
  exact extract_low _ k

theorem fieldB_normalWord (f : BitVec 6) (j k b : BitVec 3) (y : BitVec 15) : fieldB (normalWord f j k b y) = b := by
  unfold fieldB normalWord
  rw [extract_high _ y 15 3 (by decide)]
  exact extract_low _ b

theorem fieldY_normalWord (f : BitVec 6) (j k b : BitVec 3) (y : BitVec 15) : fieldY (normalWord f j k b y) = y :=
  extract_low _ y

theorem fieldF_ioWord (f : BitVec 6) (jh : BitVec 4) (kh : BitVec 2) (b : BitVec 3) (y : BitVec 15) :
    fieldF (ioWord f jh kh b y) = f := by
  unfold fieldF ioWord
  rw [extract_high _ y 24 6 (by decide), extract_high _ b 9 6 (by decide), extract_high _ kh 6 6 (by decide)]
  exact extract_append_exact f jh

theorem fieldJHat_ioWord (f : BitVec 6) (jh : BitVec 4) (kh : BitVec 2) (b : BitVec 3) (y : BitVec 15) :
    fieldJHat (ioWord f jh kh b y) = jh := by
  unfold fieldJHat ioWord
  rw [extract_high _ y 20 4 (by decide), extract_high _ b 5 4 (by decide), extract_high _ kh 2 4 (by decide)]
  exact extract_low f jh

theorem fieldKHat_ioWord (f : BitVec 6) (jh : BitVec 4) (kh : BitVec 2) (b : BitVec 3) (y : BitVec 15) :
    fieldKHat (ioWord f jh kh b y) = kh := by
  unfold fieldKHat ioWord
  rw [extract_high _ y 18 2 (by decide), extract_high _ b 3 2 (by decide)]
  exact extract_low _ kh

theorem fieldB_ioWord (f : BitVec 6) (jh : BitVec 4) (kh : BitVec 2) (b : BitVec 3) (y : BitVec 15) :
    fieldB (ioWord f jh kh b y) = b := by
  unfold fieldB ioWord
  rw [extract_high _ y 15 3 (by decide)]
  exact extract_low _ b

theorem fieldY_ioWord (f : BitVec 6) (jh : BitVec 4) (kh : BitVec 2) (b : BitVec 3) (y : BitVec 15) :
    fieldY (ioWord f jh kh b y) = y := extract_low _ y

theorem fieldF_word77 (g : BitVec 6) (b : BitVec 3) (y : BitVec 15) : fieldF (word77 g b y) = 63#6 := by
  unfold fieldF word77
  rw [extract_high _ y 24 6 (by decide), extract_high _ b 9 6 (by decide)]
  exact extract_append_exact 63#6 g

theorem fieldG_word77 (g : BitVec 6) (b : BitVec 3) (y : BitVec 15) : fieldG (word77 g b y) = g := by
  unfold fieldG word77
  rw [extract_high _ y 18 6 (by decide), extract_high _ b 3 6 (by decide)]
  exact extract_low _ g

theorem fieldB_word77 (g : BitVec 6) (b : BitVec 3) (y : BitVec 15) : fieldB (word77 g b y) = b := by
  unfold fieldB word77
  rw [extract_high _ y 15 3 (by decide)]
  exact extract_low _ b

theorem fieldY_word77 (g : BitVec 6) (b : BitVec 3) (y : BitVec 15) : fieldY (word77 g b y) = y := extract_low _ y

end Sys2Proof
end

