-- ==== Sys2Proof/Laws/Floating.lean ====
section
/-! SUPPORT. The result formation `fres` of floating point: its fraction is normalized, its word has the sign given, and what it
answers by the exponent of the exact result. -/

namespace Sys2Proof.Machine

open Sys2Proof

/-- A magnitude lies between the powers of two that its bit length gives. -/
theorem bitLength_bounds (mag : Nat) (h : mag ≠ 0) : 0 < bitLength mag ∧ 2 ^ (bitLength mag - 1) ≤ mag ∧ mag < 2 ^ bitLength mag := by
  unfold bitLength
  rw [if_neg h]
  exact ⟨by omega, by simpa using Nat.log2_self_le h, Nat.lt_log2_self⟩

/-- The first 48 bits of a magnitude begin with a 1. -/
theorem fpTruncate_normal (mag : Nat) (h : mag ≠ 0) : 2 ^ 47 ≤ fpTruncate mag ∧ fpTruncate mag < 2 ^ 48 := by
  obtain ⟨h0, h1, h2⟩ := bitLength_bounds mag h
  unfold fpTruncate
  generalize bitLength mag = l at *
  by_cases c : l ≤ 48
  · simp only [c, if_true]
    have e1 : 2 ^ (l - 1) * 2 ^ (48 - l) = 2 ^ 47 := by rw [← pow_add]; congr 1; omega
    have e2 : 2 ^ l * 2 ^ (48 - l) = 2 ^ 48 := by rw [← pow_add]; congr 1; omega
    exact ⟨e1 ▸ Nat.mul_le_mul_right _ h1, e2 ▸ Nat.mul_lt_mul_of_pos_right h2 (by positivity)⟩
  · simp only [c, if_false]
    rw [Nat.le_div_iff_mul_le (by positivity), Nat.div_lt_iff_lt_mul (by positivity), ← pow_add, ← pow_add]
    rw [show 47 + (l - 48) = l - 1 by omega, show 48 + (l - 48) = l by omega]
    exact ⟨h1, h2⟩

/-- An exact result is its first 48 bits. -/
theorem fpTruncate_exact (mag : Nat) (sticky : Bool) (h : fpExact mag sticky = true) :
    sticky = false ∧ fpTruncate mag * 2 ^ (bitLength mag - 48) = mag * 2 ^ (48 - bitLength mag) := by
  simp only [fpExact, Bool.and_eq_true, Bool.not_eq_true', beq_iff_eq] at h
  refine ⟨h.1, ?_⟩
  unfold fpTruncate
  by_cases c : bitLength mag ≤ 48
  · simp [c, show bitLength mag - 48 = 0 by omega]
  · simp only [c, if_false, show 48 - bitLength mag = 0 by omega, pow_zero, mul_one]
    exact Nat.div_mul_cancel (Nat.dvd_of_mod_eq_zero h.2)

/-- A normalized number has the sign it was given, and its first fraction bit is not its sign. -/
theorem fpEncode_normalized (neg : Bool) (c f : Nat) (hc : c < 2 ^ 11) (h1 : 2 ^ 47 ≤ f) (h2 : f < 2 ^ 48) :
    (fpEncode neg c f).getLsbD 59 = neg ∧ (fpEncode neg c f).getLsbD 47 = !neg := by
  have b59 : (c * 2 ^ 48 + f).testBit 59 = false := Nat.testBit_lt_two_pow (by omega)
  have b47 : (c * 2 ^ 48 + f).testBit 47 = true := by
    rw [Nat.testBit_eq_decide_div_mod_eq]; simp; omega
  have e59 : (BitVec.ofNat 60 (c * 2 ^ 48 + f)).getLsbD 59 = false := by rw [BitVec.getLsbD_ofNat, b59]; rfl
  have e47 : (BitVec.ofNat 60 (c * 2 ^ 48 + f)).getLsbD 47 = true := by rw [BitVec.getLsbD_ofNat, b47]; rfl
  unfold fpEncode
  cases neg
  · exact ⟨e59, e47⟩
  · simp only [if_true, BitVec.getLsbD_not, e59, e47]; exact ⟨rfl, rfl⟩

/-- Whatever the rounding, a result in range is normalized and has the sign of the exact one. -/
theorem fpRounded_normalized (rule : FpRound) (neg : Bool) (mag : Nat) (exp2 : Int) (sticky : Bool) (h : mag ≠ 0)
    (hl : -1024 ≤ (bitLength mag : Int) + exp2) (hu : (bitLength mag : Int) + exp2 ≤ 1023) :
    (fpRounded rule neg mag exp2 sticky).getLsbD 59 = neg ∧ (fpRounded rule neg mag exp2 sticky).getLsbD 47 = !neg := by
  unfold fpRounded
  split
  · obtain ⟨h1, h2⟩ := fpTruncate_normal mag h
    exact fpEncode_normalized _ _ _ (by omega) h1 h2
  · generalize Config.otherRounding neg mag exp2 sticky = z
    refine fpEncode_normalized _ _ _ ?_ (by omega) (by omega)
    by_cases c : (z.msb && decide ((bitLength mag : Int) + exp2 < 1023)) = true
    · have : (bitLength mag : Int) + exp2 < 1023 := by simp only [Bool.and_eq_true, decide_eq_true_eq] at c; exact c.2
      simp only [c, if_true]; omega
    · simp only [c]; simp; omega

/-- Everything `fres` can do: zero, one of the two interrupts with AQ free, or the rounded result. -/
theorem fpResult_cases (neg : Bool) (mag : Nat) (exp2 : Int) (sticky : Bool) (s : State) :
    let e := (bitLength mag : Int) + exp2
    (mag = 0 ∧ fpResult neg mag exp2 sticky s = .next (setAq 0 s)) ∨
    (mag ≠ 0 ∧ 1023 < e ∧ fpResult neg mag exp2 sticky s = raise .fpOverflow none (freeAq s)) ∨
    (mag ≠ 0 ∧ e < -1024 ∧ fpResult neg mag exp2 sticky s = raise .fpUnderflow none (freeAq s)) ∨
    (mag ≠ 0 ∧ -1024 ≤ e ∧ e ≤ 1023 ∧
      fpResult neg mag exp2 sticky s = .next (setAq (fpRounded s.cfg.fpRound neg mag exp2 sticky) s)) := by
  intro e
  unfold fpResult
  by_cases h0 : mag = 0
  · simp [h0]
  · rw [if_neg h0]
    by_cases h1 : 1023 < e
    · exact .inr (.inl ⟨h0, h1, if_pos h1⟩)
    · by_cases h2 : e < -1024
      · exact .inr (.inr (.inl ⟨h0, h2, (if_neg h1).trans (if_pos h2)⟩))
      · exact .inr (.inr (.inr ⟨h0, by omega, by omega, (if_neg h1).trans (if_neg h2)⟩))

end Sys2Proof.Machine
end

