-- ==== Sys2Proof/Laws/Frames.lean ====
section
/-! SUPPORT. Frames and operand forms: what taking an operand, storing a result, writing an index register and jumping leave, each
said once for the statements about instructions. -/

namespace Sys2Proof.Machine

open Sys2Proof

/-! ## `Kept` and its composition -/

theorem Kept.refl (s : State) : Kept s s := by simp [Kept, SameIndex, SameIo, SameSystem, SameMemory]

theorem Kept.trans {s t u : State} (h : Kept s t) (g : Kept t u) : Kept s u := by
  simp_all [Kept, SameIndex, SameIo, SameSystem, SameMemory]

theorem capture_kept (v : Addr) (s : State) : Kept s (capture v s) := by
  simp [Kept, SameIndex, SameIo, SameSystem, SameMemory, wordAt]

theorem afterConvert_kept (s : State) : Kept s (afterConvert s) := by
  simp [Kept, SameIndex, SameIo, SameSystem, SameMemory, wordAt]

theorem noteStorage_kept (b : BitVec 3) (y : BitVec 15) (s : State) : Kept s (noteStorage b y s) :=
  (afterConvert_kept s).trans (capture_kept _ _)

theorem setA_kept {s t : State} (a : Word) (h : Kept s t) : Kept s (t.setA a) := by
  simpa [Kept, SameIndex, SameIo, SameSystem, SameMemory, wordAt] using h

theorem setQ_kept {s t : State} (a : Word) (h : Kept s t) : Kept s (t.setQ a) := by
  simpa [Kept, SameIndex, SameIo, SameSystem, SameMemory, wordAt] using h

theorem setPc_kept {s t : State} (a : Addr) (h : Kept s t) : Kept s (t.setPc a) := by
  simpa [Kept, SameIndex, SameIo, SameSystem, SameMemory, wordAt] using h

theorem setCtl_kept {s t : State} (c : Control) (h : Kept s t) : Kept s (t.setCtl c) := by
  simpa [Kept, SameIndex, SameIo, SameSystem, SameMemory, wordAt] using h

theorem spend_kept {s t : State} (h : Kept s t) : Kept s (spend t) := by
  simpa [Kept, SameIndex, SameIo, SameSystem, SameMemory, wordAt] using h

theorem freeA_kept {s t : State} (h : Kept s t) : Kept s (freeA t) := spend_kept (setA_kept _ h)

theorem freeQ_kept {s t : State} (h : Kept s t) : Kept s (freeQ t) := spend_kept (setQ_kept _ h)

theorem skipIf_kept {s t : State} (c : Bool) (h : Kept s t) : Kept s (skipIf c t) := by
  cases c
  · exact h
  · exact setPc_kept _ h

theorem setAq_kept {s t : State} (d : DWord) (h : Kept s t) : Kept s (setAq d t) := setQ_kept _ (setA_kept _ h)

theorem spendHazard_kept (s : State) : Kept s (spendHazard s) := by
  unfold spendHazard; split
  · exact spend_kept (Kept.refl s)
  · exact Kept.refl s


theorem wordAt_skipIf (c : Bool) (s : State) (x : Addr) : wordAt (skipIf c s) x = wordAt s x := by cases c <;> rfl

@[simp] theorem spendHazard_a (s : State) : (spendHazard s).a = s.a := by unfold spendHazard; split <;> rfl
@[simp] theorem spendHazard_q (s : State) : (spendHazard s).q = s.q := by unfold spendHazard; split <;> rfl
@[simp] theorem spendHazard_pc (s : State) : (spendHazard s).pc = s.pc := by unfold spendHazard; split <;> rfl
@[simp] theorem spendHazard_ctl (s : State) : (spendHazard s).ctl = s.ctl := by unfold spendHazard; split <;> rfl

/-! ## AQ -/

theorem join_halves (d : DWord) : (d.extractLsb' 30 30 ++ d.extractLsb' 0 30 : BitVec (30 + 30)) = d := by
  apply BitVec.eq_of_getLsbD_eq
  intro i hi
  rw [BitVec.getLsbD_append]
  simp only [BitVec.getLsbD_extractLsb']
  by_cases h : i < 30
  · simp [h]
  · have h2 : i - 30 < 30 := by omega
    have h3 : 30 + (i - 30) = i := by omega
    simp [h, h2, h3]

/-- A write of AQ is read back from A and Q. -/
theorem aq_setAq (d : DWord) (t : State) : (setAq d t).a ++ (setAq d t).q = d := join_halves d

/-- A j, k, g or b designator is one of eight. -/
theorem designator_cases (j : BitVec 3) :
    j = 0#3 ∨ j = 1#3 ∨ j = 2#3 ∨ j = 3#3 ∨ j = 4#3 ∨ j = 5#3 ∨ j = 6#3 ∨ j = 7#3 := by revert j; decide

/-! ## Notes of operands -/

/-- An instruction that uses `ybar` as nothing leaves only f1 open. -/
theorem captureUnused_frame (b : BitVec 3) (y : BitVec 15) (s : State) :
    Kept s (captureUnused b y s) ∧ (captureUnused b y s).a = s.a ∧ (captureUnused b y s).q = s.q ∧ (captureUnused b y s).pc = s.pc ∧
      ControlKept s (captureUnused b y s) := by
  refine ⟨by simp [Kept, SameIndex, SameIo, SameSystem, SameMemory, wordAt], by simp, by simp, by simp, ?_⟩
  unfold captureUnused
  split
  · simp [ControlKept]
  · simp only [ControlKept, spend, State.setFree_ctl, capture_ctl]
    split <;> simp [withF1_high]

theorem operandNote_kept (k b : BitVec 3) (y : BitVec 15) (s : State) : Kept s (operandNote k b y s) := by
  unfold operandNote; split
  · exact capture_kept _ _
  · split
    · exact (captureUnused_frame b y s).1
    · exact noteStorage_kept b y s

theorem operandNote_regs (k b : BitVec 3) (y : BitVec 15) (s : State) :
    (operandNote k b y s).a = s.a ∧ (operandNote k b y s).q = s.q ∧ (operandNote k b y s).pc = s.pc := by
  unfold operandNote noteData noteStorage; split
  · simp
  · split <;> simp

@[simp] theorem operandNote_a (k b : BitVec 3) (y : BitVec 15) (s : State) : (operandNote k b y s).a = s.a := (operandNote_regs k b y s).1
@[simp] theorem operandNote_q (k b : BitVec 3) (y : BitVec 15) (s : State) : (operandNote k b y s).q = s.q := (operandNote_regs k b y s).2.1
@[simp] theorem operandNote_pc (k b : BitVec 3) (y : BitVec 15) (s : State) : (operandNote k b y s).pc = s.pc := (operandNote_regs k b y s).2.2

@[simp] theorem noteStorage_a (b : BitVec 3) (y : BitVec 15) (s : State) : (noteStorage b y s).a = s.a := by simp [noteStorage]
@[simp] theorem noteStorage_q (b : BitVec 3) (y : BitVec 15) (s : State) : (noteStorage b y s).q = s.q := by simp [noteStorage]
@[simp] theorem noteStorage_pc (b : BitVec 3) (y : BitVec 15) (s : State) : (noteStorage b y s).pc = s.pc := by simp [noteStorage]
@[simp] theorem noteStorage_rep (b : BitVec 3) (y : BitVec 15) (s : State) : (noteStorage b y s).rep = s.rep := by simp [noteStorage]
@[simp] theorem noteStorage_cfg (b : BitVec 3) (y : BitVec 15) (s : State) : (noteStorage b y s).cfg = s.cfg := by simp [noteStorage]
@[simp] theorem noteStorage_sel (b : BitVec 3) (y : BitVec 15) (s : State) : (noteStorage b y s).sel = s.sel := by simp [noteStorage]
@[simp] theorem noteStorage_panel (b : BitVec 3) (y : BitVec 15) (s : State) : (noteStorage b y s).panel = s.panel := by simp [noteStorage]
@[simp] theorem noteStorage_bWork (b : BitVec 3) (y : BitVec 15) (s : State) : (noteStorage b y s).bWork = s.bWork := by simp [noteStorage]

theorem wordAt_noteStorage (b : BitVec 3) (y : BitVec 15) (s : State) (x : Addr) : wordAt (noteStorage b y s) x = wordAt s x := by
  simp [wordAt, noteStorage]

theorem noteStorage_controlKept (b : BitVec 3) (y : BitVec 15) (s : State) : ControlKept s (noteStorage b y s) := by
  unfold noteStorage ControlKept
  simp only [capture_ctl]
  unfold afterConvert
  by_cases h : s.ctl.newIfr = .due <;> simp only [h, if_true, if_false] <;> split <;> simp [withF1_high, activate]

theorem noteStorage_newIfr (b : BitVec 3) (y : BitVec 15) (s : State) : (noteStorage b y s).ctl.newIfr ≠ .due := by
  unfold noteStorage
  simp only [capture_ctl]
  unfold afterConvert
  by_cases h : s.ctl.newIfr = .due <;> simp only [h, if_true, if_false] <;> split <;> simp [activate, h]

/-! ## Equal addressing: A, Q and storage do not enter an address -/

/-- Two states form the same addresses. -/
structure SameAddressing (s t : State) : Prop where
  ctl : t.ctl = s.ctl
  rep : t.rep = s.rep
  panel : t.panel = s.panel
  bExec : t.bExec = s.bExec
  bWork : t.bWork = s.bWork

theorem effective_congr {s t : State} (h : SameAddressing s t) (b : BitVec 3) (y : BitVec 15) : effective b y t = effective b y s := by
  obtain ⟨h1, h2, h3, h4, h5⟩ := h
  cases s; cases t; simp only at h1 h2 h3 h4 h5; subst h1; subst h2; subst h3; subst h4; subst h5; rfl

theorem bRead_congr {s t : State} (h : SameAddressing s t) (b : BitVec 3) : bRead b t = bRead b s := by
  obtain ⟨h1, h2, h3, h4, h5⟩ := h
  cases s; cases t; simp only at h1 h2 h3 h4 h5; subst h1; subst h2; subst h3; subst h4; subst h5; rfl

theorem convert_congr {s t : State} (h : SameAddressing s t) (b : BitVec 3) (r : Addr) : (convert b r t).1 = (convert b r s).1 := by
  obtain ⟨h1, h2, h3, h4, h5⟩ := h
  cases s; cases t; simp only at h1 h2 h3 h4 h5; subst h1; subst h2; subst h3; subst h4; subst h5
  unfold convert; simp only []; split <;> rfl

theorem opAddr_congr {s t : State} (h : SameAddressing s t) (b : BitVec 3) (y : BitVec 15) : opAddr b y t = opAddr b y s := by
  unfold opAddr; rw [effective_congr h b y, convert_congr h]

theorem canWrite_congr {s t : State} (h : SameAddressing s t) (hm : t.parity = s.parity) (hc : t.cfg = s.cfg) (o : OpAddr) (n : Nat)
    (p : Part) : canWrite o n p t = canWrite o n p s := by
  obtain ⟨h1, h2, h3, h4, h5⟩ := h
  cases s; cases t; simp only at h1 h2 h3 h4 h5 hm hc; subst h1; subst h2; subst h3; subst h4; subst h5; subst hm; subst hc
  cases p <;> rfl

theorem sameAddressing_setA (s : State) (v : Word) : SameAddressing s (s.setA v) := ⟨rfl, rfl, rfl, rfl, rfl⟩

theorem sameAddressing_setFree (s : State) (n : Nat) : SameAddressing s (s.setFree n) := ⟨rfl, rfl, rfl, rfl, rfl⟩

theorem noteStorage_setA (b : BitVec 3) (y : BitVec 15) (s : State) (v : Word) :
    noteStorage b y (s.setA v) = (noteStorage b y s).setA v := by
  have h1 : opAddr b y (s.setA v) = opAddr b y s := opAddr_congr (sameAddressing_setA _ _) b y
  unfold noteStorage; rw [h1]
  have h2 : afterConvert (s.setA v) = (afterConvert s).setA v := by
    unfold afterConvert; by_cases hd : s.ctl.newIfr = .due <;> simp [hd, activate] <;> rfl
  rw [h2]
  unfold capture
  by_cases hf : f1Inhibited (afterConvert s) = true <;> simp only [f1Inhibited, State.setA_ctl, State.setA_rep] at * <;>
    (simp only [hf]; rfl)

theorem operandReadable_setFree (k b : BitVec 3) (y : BitVec 15) (s : State) (n : Nat) :
    operandReadable k b y (s.setFree n) = operandReadable k b y s := by
  unfold operandReadable; rw [opAddr_congr (sameAddressing_setFree s n)]; rfl

theorem operandValue_setFree (k b : BitVec 3) (y : BitVec 15) (s : State) (n : Nat) :
    operandValue k b y (s.setFree n) = operandValue k b y s := by
  unfold operandValue; rw [opAddr_congr (sameAddressing_setFree s n), effective_congr (sameAddressing_setFree s n)]; rfl

theorem operandReadable_spendHazard (k b : BitVec 3) (y : BitVec 15) (s : State) :
    operandReadable k b y (spendHazard s) = operandReadable k b y s := by
  unfold spendHazard; split
  · exact operandReadable_setFree ..
  · rfl

theorem operandValue_spendHazard (k b : BitVec 3) (y : BitVec 15) (s : State) :
    operandValue k b y (spendHazard s) = operandValue k b y s := by
  unfold spendHazard; split
  · exact operandValue_setFree ..
  · rfl

/-! ## Stores -/

/-- A store-class store that may be made leaves the stored word. -/
theorem storeOperand_ok (k b : BitVec 3) (y : BitVec 15) (v : Word) (f : State → State) (s : State)
    (hw : canWrite (opAddr b y s) 0 (partOf k) s = true) :
    storeOperand k b y v f s =
      .ok () (storeWord ((opAddr b y s).word 0) (partOf k) (if k.getLsbD 2 then ~~~v else v) (noteStorage b y s)) := by
  have := canWrite_noted b y 0 (partOf k) true s hw
  simp only [if_true] at this
  simp only [storeOperand, operandAddr_eq, if_true]
  rw [writeAt_ok _ _ _ _ _ _ _ this]

/-- A store of a whole word that may be made leaves it. -/
theorem storeWhole_ok (b : BitVec 3) (y : BitVec 15) (v : Word) (s : State) (hw : canWrite (opAddr b y s) 0 .whole s = true) :
    storeWhole b y v s = .ok () (storeWord ((opAddr b y s).word 0) .whole v (noteStorage b y s)) := by
  have := canWrite_noted b y 0 .whole true s hw
  simp only [if_true] at this
  simp only [storeWhole, operandAddr_eq, if_true]
  rw [writeAt_ok _ _ _ _ _ _ _ this]

/-- After a store the stored word holds the part, every other word reads as before, and the rest of the machine is as before. -/
theorem storeWord_frame (d : Addr) (p : Part) (v : Word) (n s : State) (c : Bool)
    (hn : KeptButMemory s n ∧ ∀ x, wordAt n x = wordAt s x) :
    wordAt (skipIf c (storeWord d p v n)) d = mergePart p (wordAt s d) v ∧ MemoryKeptBut [d] s (skipIf c (storeWord d p v n)) ∧
      KeptButMemory s (skipIf c (storeWord d p v n)) := by
  obtain ⟨h1, h2⟩ := hn
  refine ⟨?_, ?_, ?_⟩
  · rw [wordAt_skipIf, wordAt_storeWord]; simp [h2]
  · intro x hx; rw [wordAt_skipIf, wordAt_storeWord]; simp at hx; rw [if_neg (fun h => hx h.symm)]; exact h2 x
  · cases c <;> simpa [skipIf, KeptButMemory, SameIndex, SameIo, SameSystem, storeWord] using h1

/-- After a store the parity bits of the written halves are right and all others as before. -/
theorem storeWord_parityStored (d : Addr) (p : Part) (v : Word) (n s : State) (c : Bool) (hn : n.parity = s.parity) :
    ParityStored d p s (skipIf c (storeWord d p v n)) := by
  intro x u
  have h := storeWord_parity d p v n x u
  rw [show halfBad (skipIf c (storeWord d p v n)) x u = halfBad (storeWord d p v n) x u by cases c <;> rfl, h]
  unfold halfBad; rw [hn]

theorem noteStorage_keptButMemory (b : BitVec 3) (y : BitVec 15) (s : State) :
    KeptButMemory s (noteStorage b y s) ∧ ∀ x, wordAt (noteStorage b y s) x = wordAt s x := by
  simp [KeptButMemory, SameIndex, SameIo, SameSystem, noteStorage, wordAt]

/-- The first seven words of an operand have different addresses. -/
theorem opAddr_word_ne (o : OpAddr) (x z : Nat) (hx : x < 7) (hz : z < 7) (h : x ≠ z) : o.word x ≠ o.word z := by
  unfold OpAddr.word; intro e
  have e' := BitVec.add_right_inj o.base |>.mp e
  have := congrArg BitVec.toNat e'
  simp at this; omega

/-- Successive words that can be written are written: each has its part, every other word reads as before, the written halves have right
parity, nothing else changes. -/
theorem writeWords_ok (o : OpAddr) (p : Part) : ∀ (ws : List Word) (n : Nat) (s : State), n + ws.length ≤ 7 →
    (∀ i, n ≤ i → i < n + ws.length → canWrite o i p s = true) →
    ∃ t, writeWords o p n ws s = .ok () t ∧
      (∀ i (h : i < ws.length), wordAt t (o.word (n + i)) = mergePart p (wordAt s (o.word (n+i))) ws[i]) ∧
      (∀ x, (∀ i, i < ws.length → x ≠ o.word (n+i)) → wordAt t x = wordAt s x) ∧
      KeptButMemory s t ∧ t.a = s.a ∧ t.q = s.q ∧ t.pc = s.pc ∧ t.ctl = s.ctl ∧
      ∀ x u, halfBad t x u = (halfBad s x u && !(decide (∃ i < ws.length, x = o.word (n + i)) && covers p u)) := by
  intro ws
  induction ws with
  | nil =>
    intro n s _ _
    exact ⟨s, rfl, by simp, by simp, by simp [KeptButMemory, SameIndex, SameIo, SameSystem], rfl, rfl, rfl, rfl, by simp⟩
  | cons w ws ih =>
    intro n s hn h
    simp only [List.length_cons] at hn h
    have h0 := h n (le_refl _) (by omega)
    have hpar : ∀ i, n + 1 ≤ i → i < n + 1 + ws.length → canWrite o i p (storeWord (o.word n) p w s) = true := by
      intro i h1 h2
      have hi := h i (by omega) (by omega)
      simp only [canWrite, Bool.and_eq_true, Bool.or_eq_true, Bool.not_eq_true'] at hi ⊢
      obtain ⟨⟨a1, a2⟩, a3⟩ := hi
      refine ⟨⟨a1, ?_⟩, a3⟩
      revert a2
      have : ∀ u, halfBad s (o.word i) u = false → halfBad (storeWord (o.word n) p w s) (o.word i) u = false := by
        intro u hu
        simp only [halfBad, storeWord, State.setOverlap_parity, State.setParity_parity, List.contains_eq_mem, decide_eq_false_iff_not] at *
        intro hm; apply hu
        revert hm
        unfold mendPart mendHalf
        cases p <;> simp <;> intros <;> assumption
      cases p <;> simp only [testReadBad] <;> first | exact this _ | simp
    obtain ⟨t, e, f1, f2, f3, f4, f5, f6, f7, f8⟩ := ih (n+1) _ (by omega) hpar
    refine ⟨t, ?_, ?_, ?_, ?_, by rw [f4]; rfl, by rw [f5]; rfl, by rw [f6]; rfl, by rw [f7]; rfl, ?_⟩
    · simp only [writeWords, writeAt_ok _ _ _ _ _ _ _ h0, Res.bind_ok, e]
    · intro i hi
      cases i with
      | zero =>
        rw [f2, wordAt_storeWord]; simp
        intro i hi; exact opAddr_word_ne o _ _ (by omega) (by omega) (by omega)
      | succ i =>
        have := f1 i (by simpa using hi)
        rw [show n + 1 + i = n + (i+1) by omega] at this
        rw [this, wordAt_storeWord, if_neg]; rfl
        simp at hi
        exact opAddr_word_ne o _ _ (by omega) (by omega) (by omega)
    · intro x hx
      rw [f2 x (fun i hi => by have := hx (i+1) (by simpa using hi); rwa [show n + (i+1) = n + 1 + i by omega] at this), wordAt_storeWord, if_neg]
      intro e; exact hx 0 (by simp) (by simpa using e.symm)
    · simpa [KeptButMemory, SameIndex, SameIo, SameSystem, storeWord] using f3
    · intro x u
      have hex : (∃ i < (w :: ws).length, x = o.word (n + i)) ↔ x = o.word n ∨ ∃ i < ws.length, x = o.word (n + 1 + i) := by
        constructor
        · rintro ⟨i, hi, rfl⟩
          cases i with
          | zero => exact .inl rfl
          | succ i => exact .inr ⟨i, by simpa using hi, by rw [show n + 1 + i = n + (i + 1) by omega]⟩
        · rintro (rfl | ⟨i, hi, rfl⟩)
          · exact ⟨0, by simp, rfl⟩
          · exact ⟨i + 1, by simpa using hi, by rw [show n + 1 + i = n + (i + 1) by omega]⟩
      rw [f8, storeWord_parity, decide_eq_decide.mpr hex, Bool.decide_or]
      cases halfBad s x u <;> cases covers p u <;> simp

/-! ## The Replace class -/

theorem replaceAddr_eq (o : OpAddr) (b : BitVec 3) (s : State) (h : s.ctl.newIfr ≠ .due) :
    replaceAddr o b s = ((replaceAddr o b s).1, s) := by
  unfold replaceAddr
  split
  · simp only []
    have := convert_snd b (cutTo (ybarWidth b s) (cutTo (ybarWidth b s) s.rep.ybar + bRead s.cfg.repeatStoreB s)) s
    rw [show afterConvert s = s by simp [afterConvert, h]] at this
    exact Prod.ext rfl this
  · rfl

/-- A Replace-class instruction whose operand can be read and whose destination can be written leaves the result in A and there. -/
theorem replaceOperand_ok (f : State → Word → Word) (k b : BitVec 3) (y : BitVec 15) (s : State) (hk : replaceK k = true)
    (hr : canRead (opAddr b y s) 0 s = true) (hw : canWrite (replaceDest b y s) 0 (partOf k) (noteStorage b y s) = true) :
    replaceOperand k b y f s =
      .ok () (storeWord ((replaceDest b y s).word 0) (partOf k)
        (f (noteStorage b y s) (selectPart k (wordAt s ((opAddr b y s).word 0))))
        ((noteStorage b y s).setA (f (noteStorage b y s) (selectPart k (wordAt s ((opAddr b y s).word 0)))))) := by
  have hr' := canRead_noted b y 0 true s hr
  simp only [if_true] at hr'
  simp only [replaceOperand, hk, if_true, operandAddr_eq, readAt_ok _ true 0 _ hr', Res.bind_ok, wordAt_noteStorage]
  rw [replaceAddr_eq _ _ _ (noteStorage_newIfr b y s)]
  simp only []
  rw [writeAt_ok]
  · rfl
  · exact hw

theorem operandValue_replace (k b : BitVec 3) (y : BitVec 15) (s : State) (hk : replaceK k = true) :
    operandValue k b y s = selectPart k (wordAt s ((opAddr b y s).word 0)) := by
  have : k = 1#3 ∨ k = 2#3 ∨ k = 3#3 ∨ k = 5#3 ∨ k = 6#3 := by revert k; decide
  rcases this with rfl | rfl | rfl | rfl | rfl <;> rfl

/-! ## Shifts, bit by bit -/

theorem shiftNormal_ok (f : Nat → State → State) (j k b : BitVec 3) (y : BitVec 15) (s : State) (h : operandReadable k b y s = true)
    (hn : (operandValue k b y s).toNat % 64 ≤ 59) :
    shiftNormal f j k b y s = endNormal j (f ((operandValue k b y s).toNat % 64) (operandNote k b y s)) := by
  have : ((operandValue k b y s).setWidth 6).toNat = (operandValue k b y s).toNat % 64 := by simp
  simp only [shiftNormal, readOperand_ok k b y s h, Res.bind_ok, countOf, this, hn, if_true, Res.andThen_ok]

theorem getLsbD_shiftRightSign {w : Nat} (x : BitVec w) (n i : Nat) (h : i < w) :
    (shiftRightSign x n).getLsbD i = if i + n ≤ w - 1 then x.getLsbD (i + n) else x.msb := by
  unfold shiftRightSign
  rw [BitVec.getLsbD_sshiftRight]
  have : ¬ w ≤ i := by omega
  simp only [this, decide_false, Bool.not_false, Bool.true_and]
  by_cases hh : n + i < w
  · have : i + n ≤ w - 1 := by omega
    rw [if_pos hh, if_pos this, Nat.add_comm]
  · have : ¬ i + n ≤ w - 1 := by omega
    rw [if_neg hh, if_neg this]

theorem getLsbD_shiftLeftAround {w : Nat} (x : BitVec w) (n i : Nat) (h : i < w) :
    (shiftLeftAround x n).getLsbD i = x.getLsbD ((i + w - n % w) % w) := by
  unfold shiftLeftAround
  have hm : n % w < w := Nat.mod_lt _ (by omega)
  generalize hmm : n % w = m at *
  simp only [BitVec.getLsbD_ofNat, h, decide_true, Bool.true_and]
  have hx := x.isLt
  have hp : 2 ^ w = 2 ^ (w - m) * 2 ^ m := by rw [← pow_add]; congr 1; omega
  have e1 : x.toNat * 2 ^ m % 2 ^ w = (x.toNat % 2 ^ (w - m)) * 2 ^ m := by
    rw [hp, Nat.mul_mod_mul_right]
  have e2 : x.toNat / 2 ^ (w - m) < 2 ^ m := by
    rw [Nat.div_lt_iff_lt_mul (by positivity)]; rw [Nat.mul_comm, ← hp]; exact hx
  rw [e1, Nat.mul_comm, Nat.testBit_two_pow_mul_add _ e2]
  split
  · rename_i hi
    have : (i + w - m) % w = i + w - m := Nat.mod_eq_of_lt (by omega)
    rw [this, Nat.testBit_div_two_pow, BitVec.getLsbD]; congr 1; omega
  · rename_i hi
    have : (i + w - m) % w = i - m := by
      rw [show i + w - m = (i - m) + w by omega, Nat.add_mod_right]; exact Nat.mod_eq_of_lt (by omega)
    rw [this, Nat.testBit_mod_two_pow, BitVec.getLsbD]
    have : i - m < w - m := by omega
    simp [this]

/-! ## Index registers -/

theorem bView_congr_high {s t : State} (h1 : t.ctl.ifrActive = s.ctl.ifrActive) (h2 : t.ctl.newIfr = s.ctl.newIfr)
    (h3 : t.ctl.oldIfr = s.ctl.oldIfr) (h4 : t.ctl.ifr.extractLsb' 17 13 = s.ctl.ifr.extractLsb' 17 13) : bView t = bView s := by
  have hb : ∀ i < 13, t.ctl.ifr.getLsbD (17 + i) = s.ctl.ifr.getLsbD (17 + i) := by
    intro i hi; have := congrArg (fun x => x.getLsbD i) h4; simpa [hi] using this
  have h8 := hb 8 (by omega); have h9 := hb 9 (by omega)
  simp only [bView, govIfr, h1, h2, h3]
  cases s.ctl.newIfr <;> simp_all

theorem bView_capture (v : Addr) (s : State) : bView (capture v s) = bView s := by
  apply bView_congr_high <;> simp only [capture_ctl] <;> split <;> simp [withF1_high]

theorem bView_operandNote (k b : BitVec 3) (y : BitVec 15) (s : State) (h : s.ctl.newIfr ≠ .due) :
    bView (operandNote k b y s) = bView s := by
  have ha : afterConvert s = s := by simp [afterConvert, h]
  unfold operandNote noteData noteStorage captureUnused
  split
  · exact bView_capture _ _
  · split
    · split
      · rfl
      · exact bView_capture _ _
    · rw [ha]; exact bView_capture _ _

theorem read_write (r : BSet) (j : BitVec 3) (v : Addr) :
    (r.write j v).read j = if j = 0#3 then 0 else if j.toNat < 4 then (v.setWidth 15).setWidth 17 else v := by
  rcases designator_cases j with rfl | rfl | rfl | rfl | rfl | rfl | rfl | rfl <;> simp [BSet.read, BSet.write]

theorem read_write_other (r : BSet) (i j : BitVec 3) (v : Addr) (h : i ≠ j) : (r.write j v).read i = r.read i := by
  rcases designator_cases j with rfl | rfl | rfl | rfl | rfl | rfl | rfl | rfl <;>
    rcases designator_cases i with rfl | rfl | rfl | rfl | rfl | rfl | rfl | rfl <;> first | (exact absurd rfl h) | rfl

theorem bSetOf_putBSet (c : BView) (r : BSet) (s : State) : bSetOf c (putBSet c r s) = r := by unfold bSetOf putBSet; split <;> rfl

theorem bSetOf_kept {s t : State} (h : SameIndex s t) (c : BView) : bSetOf c t = bSetOf c s := by
  obtain ⟨h1, h2⟩ := h; unfold bSetOf; rw [h1, h2]

/-- A physical write of an index register: it holds the value as far as it is wide, every other register is as before. -/
theorem bWritePhysical_frame (c : BView) (j : BitVec 3) (v : Addr) (s : State) :
    (bSetOf c (bWritePhysical c j v s)).read j = (if j = 0#3 then 0 else if j.toNat < 4 then (v.setWidth 15).setWidth 17 else v) ∧
      (∀ i, i ≠ j → (bSetOf c (bWritePhysical c j v s)).read i = (bSetOf c s).read i) ∧
      (if c.worker then (bWritePhysical c j v s).bExec = s.bExec else (bWritePhysical c j v s).bWork = s.bWork) := by
  refine ⟨?_, ?_, ?_⟩
  · unfold bWritePhysical; rw [bSetOf_putBSet, read_write]
  · intro i hi; unfold bWritePhysical; rw [bSetOf_putBSet, read_write_other _ _ _ _ hi]
  · unfold bWritePhysical putBSet; cases c.worker <;> rfl

/-- A write of an index register: it reads as the value cut to the active width, every other register is as before. -/
theorem bWriteIn_frame (c : BView) (j : BitVec 3) (v : Addr) (s : State) (hj : j ≠ 0#3) :
    bReadIn c j (bWriteIn c j v s) = cutTo (bWidth c j) v ∧
      (∀ i, i ≠ j → (bSetOf c (bWriteIn c j v s)).read i = (bSetOf c s).read i) ∧
      (if c.worker then (bWriteIn c j v s).bExec = s.bExec else (bWriteIn c j v s).bWork = s.bWork) := by
  refine ⟨?_, (bWritePhysical_frame c j (cutTo (bWidth c j) v) s).2⟩
  unfold bReadIn bWriteIn; rw [bSetOf_putBSet, read_write]; simp only [hj, if_false]
  have hw : bWidth c j = 15 ∨ (bWidth c j = 17 ∧ 4 ≤ j.toNat) := by
    unfold bWidth; split <;> simp_all
  rcases hw with h | ⟨h, h4⟩
  · rw [h]; simp only [cutTo, show (15 = 17) = False by simp, if_false]; split <;> simp
  · rw [h]; have : ¬ j.toNat < 4 := by omega
    simp [cutTo, this]

theorem bWidth_cases (c : BView) (j : BitVec 3) : bWidth c j = 15 ∨ bWidth c j = 17 := by unfold bWidth; split <;> simp

theorem cutTo_eq (w : Nat) (v : Word) (h : w = 15 ∨ w = 17) : cutTo w (v.setWidth 17) = BitVec.ofNat 17 (v.toNat % 2 ^ w) := by
  rcases h with rfl | rfl
  · apply BitVec.eq_of_toNat_eq; simp [cutTo]
    try omega
  · apply BitVec.eq_of_toNat_eq; simp [cutTo]

theorem toNat_cutTo (w : Nat) (v : Addr) (h : w = 15 ∨ w = 17) : (cutTo w v).toNat = v.toNat % 2 ^ w := by
  rcases h with rfl | rfl
  · simp [cutTo]; omega
  · have := v.isLt; simp [cutTo, Nat.mod_eq_of_lt this]

theorem bReadIn_lt (c : BView) (j : BitVec 3) (s : State) : (bReadIn c j s).toNat < 2 ^ bWidth c j := by
  unfold bReadIn; rw [toNat_cutTo _ _ (bWidth_cases c j)]; exact Nat.mod_lt _ (by positivity)

/-! ## Jumps -/

/-- f1 is not among the upper bits of the governing IFR. -/
theorem govIfr_capture (v : Addr) (s : State) (i : Nat) (hi : i < 13) :
    (govIfr (capture v s)).getLsbD (17 + i) = (govIfr s).getLsbD (17 + i) := by
  have h := congrArg (fun x => x.getLsbD i) (withF1_high s.ctl.ifr v)
  simp only [BitVec.getLsbD_extractLsb', hi, decide_true, Bool.true_and] at h
  unfold capture
  split
  · rfl
  · unfold govIfr setIfr
    simp only [State.setCtl_ctl]
    cases s.ctl.newIfr
    · exact h
    · rfl
    · rfl

/-- f1 does not enter an address. -/
theorem relIndex_capture (v : Addr) (b : BitVec 3) (s : State) : relIndex b (capture v s) = relIndex b s := by
  have hb := govIfr_capture v s 10 (by omega)
  unfold relIndex
  rw [hb]
  simp only [capture_ctl, capture_panel]
  split <;> rfl

theorem bRead_capture (v : Addr) (b : BitVec 3) (s : State) : bRead b (capture v s) = bRead b s := by
  unfold bRead bReadIn bSetOf; rw [bView_capture]; simp

theorem effective_capture (v : Addr) (b : BitVec 3) (y : BitVec 15) (s : State) : effective b y (capture v s) = effective b y s := by
  unfold effective indexSum ybarWidth; rw [bRead_capture, bView_capture]; simp

theorem convert_capture (v : Addr) (b : BitVec 3) (r : Addr) (s : State) : (convert b r (capture v s)).1 = (convert b r s).1 := by
  have h1 : (capture v s).ctl.newIfr = s.ctl.newIfr := by simp only [capture_ctl]; split <;> rfl
  have h2 : (capture v s).ctl.rirIV = s.ctl.rirIV := by simp only [capture_ctl]; split <;> rfl
  unfold convert; rw [h1, relIndex_capture, h2]
  cases s.ctl.newIfr <;> rfl

theorem opAddr_capture (v : Addr) (b : BitVec 3) (y : BitVec 15) (s : State) : opAddr b y (capture v s) = opAddr b y s := by
  unfold opAddr; rw [effective_capture, convert_capture]

/-- f1 does not enter the protection modes. -/
theorem modes_capture (v : Addr) (s : State) : readProtected (capture v s) = readProtected s ∧ writeProtected (capture v s) = writeProtected s ∧
    guardOn (capture v s) = guardOn s ∧ (∀ x, inside (capture v s) x = inside s x) := by
  have hb := govIfr_capture v s
  have ha : (capture v s).ctl.ifrActive = s.ctl.ifrActive := by simp only [capture_ctl]; split <;> rfl
  have hp : protField (capture v s) = protField s := by
    apply BitVec.eq_of_getLsbD_eq
    intro i hi
    simp only [protField, BitVec.getLsbD_extractLsb', hi, decide_true, Bool.true_and]
    have := hb (4 + i) (by omega)
    rwa [show 17 + (4 + i) = 21 + i by omega] at this
  have h4 := hb 4 (by omega)
  refine ⟨by simp only [readProtected, ha, hp], by simp only [writeProtected, ha, hp], by simp only [guardOn, ha, h4], fun x => ?_⟩
  simp only [inside, capture_ctl]; split <;> rfl

theorem canRead_capture (v : Addr) (o : OpAddr) (n : Nat) (s : State) : canRead o n (capture v s) = canRead o n s := by
  unfold canRead; rw [(modes_capture v s).1, (modes_capture v s).2.2.2]
  simp [installed, wordBad, halfBad]

/-- A jump operand that can be had is the operand of Table 4-1, with f1 holding P. -/
theorem jumpOperand_ok (k b : BitVec 3) (y : BitVec 15) (s : State) (h : operandReadable k b y s = true) :
    jumpOperand k b y s = .ok (operandValue k b y s) (jumpNote k s) := by
  unfold jumpOperand
  by_cases hk : immediateK k = true
  · have : k = 0#3 ∨ k = 4#3 ∨ k = 7#3 := by simpa [immediateK, or_assoc] using hk
    rcases this with rfl | rfl | rfl
    · simp [readOperand, dataOperand, operandValue, jumpNote, immediateK, effective_capture]
    · simp [readOperand, dataOperand, operandValue, jumpNote, immediateK, effective_capture, sextHalf]; rfl
    · simp [readOperand, operandValue, jumpNote, immediateK]
  · have hr : canRead (opAddr b y (capture s.pc s)) 0 (capture s.pc s) = true := by
      rw [canRead_capture, opAddr_capture]; simpa [operandReadable, hk] using h
    have hr' := canRead_noted b y 0 false _ hr
    simp only [Bool.false_eq_true, if_false] at hr'
    have hw : wordAt (afterConvert (capture s.pc s)) ((opAddr b y s).word 0) = wordAt s ((opAddr b y s).word 0) := by
      simp [wordAt]
    have hcase : k = 1#3 ∨ k = 2#3 ∨ k = 3#3 ∨ k = 5#3 ∨ k = 6#3 := by
      clear h; revert k; decide
    have hrd := readAt_ok _ false 0 _ hr'
    rw [opAddr_capture, hw] at hrd
    rcases hcase with rfl | rfl | rfl | rfl | rfl <;>
      simp [readOperand, operandAddr_eq, opAddr_capture, hrd, operandValue, jumpNote, immediateK, selectPart, zextHalf, sextHalf,
        lowerHalf, upperHalf]

/-- A jump to an allowed destination loads P. -/
theorem jumpTo_ok (b : BitVec 3) (t : Addr) (f g : State → State) (s : State)
    (h : destAllowed (convert b t s).1 (afterConvert s) = true) :
    jumpTo b t f g s = .next (g (loadPc (convert b t s).1.base (afterConvert s))) := by
  have e := convert_snd b t s
  unfold jumpTo
  cases hc : convert b t s with
  | mk o s1 =>
    rw [hc] at e h; simp only at e h; subst e
    simp only [destAllowed, Bool.or_eq_true, Bool.not_eq_true'] at h
    have : (o.checked && readProtected (afterConvert s) && !inside (afterConvert s) o.base) = false := by
      rcases h with h | h <;> simp [h]
    simp [this]

/-- A jump to a destination outside the limits is a Program Protection interrupt. -/
theorem jumpTo_denied (b : BitVec 3) (t : Addr) (f g : State → State) (s : State)
    (h : destAllowed (convert b t s).1 (afterConvert s) = false) :
    jumpTo b t f g s = protection (convert b t s).1.base false (f (afterConvert s)) := by
  have e := convert_snd b t s
  unfold jumpTo
  cases hc : convert b t s with
  | mk o s1 =>
    rw [hc] at e h; simp only at e h; subst e
    simp only [destAllowed, Bool.or_eq_false_iff, Bool.not_eq_false'] at h
    simp [h.1, h.2]

/-- A return jump that may store and go on leaves P minus RIR in the lower half of the word and P behind it. -/
theorem returnJump_ok (b : BitVec 3) (t : Addr) (g : State → State) (s : State)
    (h : returnAllowed (convert b t s).1 (afterConvert s) = true) :
    returnJump b t g s =
      .next (g (loadPc ((convert b t s).1.base + 1)
        (storeWord (convert b t s).1.base .lower ((relPc (afterConvert s)).setWidth 30) (afterConvert s)))) := by
  have e := convert_snd b t s
  unfold returnJump
  cases hc : convert b t s with
  | mk o s1 =>
    rw [hc] at e h; simp only at e h; subst e
    simp only [returnAllowed, Bool.and_eq_true, Bool.or_eq_true, Bool.not_eq_true'] at h
    obtain ⟨⟨⟨h1, h2⟩, h3⟩, h4⟩ := h
    have a1 : (o.checked && writeProtected (afterConvert s) && !inside (afterConvert s) o.base) = false := by
      rcases h1 with h | h <;> rw [h] <;> simp
    have a2 : (o.checked && readProtected (afterConvert s) && !inside (afterConvert s) (o.base + 1)) = false := by
      rcases h2 with h | h <;> rw [h] <;> simp
    simp only [a1, a2, cpuWrite_ok _ _ _ _ h3 h4, Res.andThen_ok, Bool.false_eq_true, if_false]

/-- A jump's operand changes only f1, and may put a newly loaded IFR into effect. -/
theorem jumpNote_frame (k : BitVec 3) (s : State) :
    Kept s (jumpNote k s) ∧ (jumpNote k s).a = s.a ∧ (jumpNote k s).q = s.q ∧ (jumpNote k s).pc = s.pc := by
  unfold jumpNote; split
  · exact ⟨capture_kept _ _, by simp, by simp, by simp⟩
  · exact ⟨(capture_kept _ _).trans (afterConvert_kept _), by simp, by simp, by simp⟩

theorem afterConvert_ctl_congr {s t : State} (h : t.ctl = s.ctl) : (afterConvert t).ctl = (afterConvert s).ctl := by
  unfold afterConvert; rw [h]; split <;> simp [activate, h]

/-- The resumed `REPEAT_YBAR` depends on the control registers and the word jumped to. -/
theorem resumedYbar_congr (a : Addr) {s t : State} (h : t.ctl = s.ctl) (h2 : wordAt t a = wordAt s a) :
    resumedYbar a t = resumedYbar a s := by
  unfold resumedYbar ybarWidth bView govIfr; rw [h, h2]

/-- What a taken jump does to the control registers depends on those alone, and what it does to the Repeat state also on that state and
the word jumped to. -/
theorem loadPc_congr (a : Addr) {s t : State} (h : t.ctl = s.ctl) (h2 : t.rep = s.rep) (h3 : wordAt t a = wordAt s a) :
    (loadPc a t).ctl = (loadPc a s).ctl ∧ (loadPc a t).rep = (loadPc a s).rep := by
  unfold loadPc; simp only [h, resumedYbar_congr a h h3]; split <;> simp [h, h2]

/-- A resumed `REPEAT_YBAR` is as wide as the repeated instruction's index sum: 17 bits where its b designator is 4 or above and bit 26
of the IFR in force is set, else 15. -/
theorem resumedYbar_active (a : Addr) (s : State) (h : s.ctl.ifrActive = true) (h2 : s.ctl.newIfr = .settled) :
    resumedYbar a s =
      if 4 ≤ ((wordAt s a).extractLsb' 15 3).toNat ∧ s.ctl.ifr.getLsbD 26 = true then s.ctl.ifr.extractLsb' 0 17
      else (s.ctl.ifr.extractLsb' 0 15).setWidth 17 := by
  have e : (s.ctl.ifr.extractLsb' 0 17).setWidth 15 = s.ctl.ifr.extractLsb' 0 15 := by
    apply BitVec.eq_of_getLsbD_eq; intro i hi
    simp [hi, show i < 17 by omega]
  unfold resumedYbar ybarWidth bWidth bView govIfr cutTo
  simp only [h, h2, e, Bool.not_true, Bool.false_or, Bool.and_eq_true, decide_eq_true_eq]
  generalize (wordAt s a).extractLsb' 15 3 = b
  generalize s.ctl.ifr.getLsbD 26 = wide
  cases wide
  · simp
  · by_cases c : 4 ≤ b.toNat <;> simp [c]

/-! ## Everything a reference or a jump can do -/

theorem cpuRead_cases (a : Addr) (s : State) :
    (cpuRead a s = .ok (wordAt s a) s ∧ installed s a = true ∧ wordBad s a = false) ∨
      (cpuRead a s = .stop (parityStop a s) ∧ installed s a = true) ∨
      (cpuRead a s = .stop (.fault .storageNotInstalled) ∧ installed s a = false) := by
  unfold cpuRead
  cases installed s a <;> cases wordBad s a <;> simp

theorem cpuWrite_cases (a : Addr) (p : Part) (v : Word) (s : State) :
    (cpuWrite a p v s = .ok () (storeWord a p v s) ∧ installed s a = true ∧ testReadBad s a p = false) ∨
      (cpuWrite a p v s = .stop (parityStop a (storeWord a p v s)) ∧ installed s a = true) ∨
      (cpuWrite a p v s = .stop (.fault .storageNotInstalled) ∧ installed s a = false) := by
  unfold cpuWrite
  cases installed s a <;> cases testReadBad s a p <;> simp

/-- A protected read is denied, or is the read. -/
theorem readAt_cases (o : OpAddr) (report : Bool) (n : Nat) (s : State) :
    readAt o report n s = .stop (protection (o.word n) report s) ∨ readAt o report n s = cpuRead (o.word n) s := by
  unfold readAt; simp only []; split
  · exact .inl rfl
  · exact .inr rfl

/-- A protected write is denied, or is the write. -/
theorem writeAt_cases (o : OpAddr) (report : Bool) (n : Nat) (p : Part) (v : Word) (f : State → State) (s : State) :
    writeAt o report n p v f s = .stop (protection (o.word n) report (f s)) ∨ writeAt o report n p v f s = cpuWrite (o.word n) p v s := by
  unfold writeAt; simp only []; split
  · exact .inl rfl
  · exact .inr rfl

/-- A jump loads P, or is denied with P as it was. -/
theorem jumpTo_cases (b : BitVec 3) (t : Addr) (f g : State → State) (s : State) :
    jumpTo b t f g s = .next (g (loadPc (convert b t s).1.base (afterConvert s))) ∨
      jumpTo b t f g s = protection (convert b t s).1.base false (f (afterConvert s)) := by
  cases h : destAllowed (convert b t s).1 (afterConvert s)
  · exact .inr (jumpTo_denied b t f g s h)
  · exact .inl (jumpTo_ok b t f g s h)

/-! ## The view after 7761 -/

/-- The view that 12, 70 and 71 work with after their operand: the one in force or, directly after 7761, either of two (U20). -/
theorem hazardView_operandNote (k b : BitVec 3) (y : BitVec 15) (s : State) :
    let c := (hazardView s).getD (bView (operandNote k b y (spendHazard s)))
    c = bView s ∨ (s.ctl.newIfr = .due ∧ c = bViewNew s) := by
  unfold hazardView
  cases hd : s.ctl.newIfr
  · have : spendHazard s = s := by simp [spendHazard, hazardView, hd]
    left; simp only [Option.getD_none, this]; exact bView_operandNote _ _ _ _ (by simp [hd])
  · have : spendHazard s = s := by simp [spendHazard, hazardView, hd]
    left; simp only [Option.getD_none, this]; exact bView_operandNote _ _ _ _ (by simp [hd])
  · simp only [Option.getD_some]; cases freeChoice s <;> simp

/-- The same for 72, after a jump operand. -/
theorem hazardView_jumpNote (k : BitVec 3) (s : State) :
    let c := (hazardView s).getD (bView (jumpNote k (spendHazard s)))
    c = bView s ∨ (s.ctl.newIfr = .due ∧ c = bViewNew s) := by
  have hj : s.ctl.newIfr ≠ .due → bView (jumpNote k s) = bView s := by
    intro h
    have h1 : (capture s.pc s).ctl.newIfr = s.ctl.newIfr := by simp only [capture_ctl]; split <;> rfl
    have ha : afterConvert (capture s.pc s) = capture s.pc s := by simp [afterConvert, h1, h]
    unfold jumpNote; rw [ha]; split <;> exact bView_capture _ _
  unfold hazardView
  cases hd : s.ctl.newIfr
  · have : spendHazard s = s := by simp [spendHazard, hazardView, hd]
    left; simp only [Option.getD_none, this]; exact hj (by simp [hd])
  · have : spendHazard s = s := by simp [spendHazard, hazardView, hd]
    left; simp only [Option.getD_none, this]; exact hj (by simp [hd])
  · simp only [Option.getD_some]; cases freeChoice s <;> simp

/-! ## Interrupt entry outside a Repeat sequence -/

/-- Outside a Repeat sequence an entry leaves everything but the IFR's f9, the modes, the lockout, the channel registers and the source
of the next instruction (60_exceptions.md R541). -/
theorem enter_frame (x : Interrupt) (a : Option Addr) (s : State) (h : s.rep.active = false) :
    Entered (x.location s.cfg) s (enter x a s) ∧ IfrEntered s (enter x a s) ∧ (enter x a s).a = s.a ∧ (enter x a s).q = s.q ∧
      SameMemory s (enter x a s) ∧ (enter x a s).pending = s.pending ∧ (enter x a s).sel = enterSelect x s.sel := by
  have hr : enterRecord x a s = if s.ctl.ifrHold || s.ctl.reinit then s else setIfr (withF9 s.ctl.ifr false) s := by
    simp [enterRecord, h]
  have hbit : ∀ i < 29, (withF9 s.ctl.ifr false).getLsbD i = s.ctl.ifr.getLsbD i := by
    intro i hi
    change BitVec.getLsbD ((BitVec.ofBool false ++ s.ctl.ifr.extractLsb' 0 29 : BitVec (1 + 29))) i = _
    rw [BitVec.getLsbD_append]; simp [hi]
  have htop : (withF9 s.ctl.ifr false).getLsbD 29 = false := by
    change BitVec.getLsbD ((BitVec.ofBool false ++ s.ctl.ifr.extractLsb' 0 29 : BitVec (1 + 29))) 29 = _
    rw [BitVec.getLsbD_append]; simp
  have hcsr : (enterSelect x s.sel).csr = s.sel.csr := by
    cases x with
    | cond x => cases x <;> rfl
    | uncond x => rfl
  unfold enter
  rw [hr]
  split
  · rename_i hh
    simp [Entered, IfrEntered, SameIndex, SameMemory, wordAt, hcsr, hh]
  · rename_i hh
    rw [Bool.not_eq_true] at hh
    simp only [Entered, IfrEntered, SameIndex, SameMemory, wordAt, hh, setIfr, State.setCtl_ctl]
    simp [hcsr]
    exact ⟨hbit, htop⟩

/-! ## The IFR fields the hardware writes, bit by bit, and denied references -/

/-- Of two writes of f1 the second stands. -/
theorem withF1_withF1 (w : Word) (u v : Addr) : withF1 (withF1 w u) v = withF1 w v := by
  unfold withF1; congr 1
  exact withF1_high w u

theorem f1Inhibited_capture (v : Addr) (s : State) : f1Inhibited (capture v s) = f1Inhibited s := by
  unfold f1Inhibited; simp only [capture_ctl, capture_rep]; split <;> rfl

/-- Of two notes of an address in f1 the second stands. -/
theorem capture_capture (u v : Addr) (s : State) : capture v (capture u s) = capture v s := by
  by_cases h : f1Inhibited s = true
  · have : capture u s = s := by simp [capture, h]
    rw [this]
  · have hu : f1Inhibited (capture u s) = false := by rw [f1Inhibited_capture]; simpa using h
    have h' : f1Inhibited s = false := by simpa using h
    have e1 : capture u s = setIfr (withF1 s.ctl.ifr u) s := by simp [capture, h']
    have e2 : capture v s = setIfr (withF1 s.ctl.ifr v) s := by simp [capture, h']
    have e3 : capture v (capture u s) = setIfr (withF1 (capture u s).ctl.ifr v) (capture u s) := by
      conv_lhs => rw [capture]
      simp [hu]
    rw [e3, e2, e1]
    simp [setIfr, State.setCtl, withF1_withF1]

theorem withF1_getLsbD (w : Word) (v : Addr) (i : Nat) : (withF1 w v).getLsbD i = if i < 17 then v.getLsbD i else w.getLsbD i := by
  change BitVec.getLsbD ((w.extractLsb' 17 13 ++ v : BitVec (13 + 17))) i = _
  rw [BitVec.getLsbD_append]
  split
  · rfl
  · rw [BitVec.getLsbD_extractLsb', show 17 + (i - 17) = i by omega]
    by_cases h : i - 17 < 13
    · simp [h]
    · simp [h]; rw [BitVec.getLsbD_of_ge]; omega

theorem withF2_getLsbD (w : Word) (j : BitVec 3) (i : Nat) :
    (withF2 w j).getLsbD i = if i < 18 then w.getLsbD i else if i < 21 then j.getLsbD (i - 18) else w.getLsbD i := by
  change BitVec.getLsbD ((w.extractLsb' 21 9 ++ j ++ w.extractLsb' 0 18 : BitVec (9 + 3 + 18))) i = _
  rw [BitVec.getLsbD_append, BitVec.getLsbD_append]
  split
  · simp [*]
  · by_cases h : i < 21
    · simp [h, show i - 18 < 3 by omega]
    · simp only [h, show ¬ i - 18 < 3 by omega, if_false, BitVec.getLsbD_extractLsb']
      rw [show 21 + (i - 18 - 3) = i by omega]
      by_cases h2 : i - 18 - 3 < 9
      · simp [h2]
      · simp [h2]; rw [BitVec.getLsbD_of_ge]; omega

theorem withF9_getLsbD (w : Word) (v : Bool) (i : Nat) :
    (withF9 w v).getLsbD i = if i < 29 then w.getLsbD i else if i = 29 then v else false := by
  change BitVec.getLsbD ((BitVec.ofBool v ++ w.extractLsb' 0 29 : BitVec (1 + 29))) i = _
  rw [BitVec.getLsbD_append]
  split
  · simp [*]
  · by_cases h : i = 29
    · subst h; simp
    · simp [h]; omega

/-- What an interrupt inside a Repeat sequence leaves in the IFR: f9, the old f3 to f8, f2, the old bit 17, and f1 (48_sequence.md
R440). -/
theorem repeatRecord_fields (w : Word) (j : BitVec 3) (a : Addr) :
    let r := withF1 (withF2 (withF9 w true) j) a
    r.getLsbD 29 = true ∧ r.extractLsb' 21 8 = w.extractLsb' 21 8 ∧ r.extractLsb' 18 3 = j ∧ r.getLsbD 17 = w.getLsbD 17 ∧
      r.extractLsb' 0 17 = a := by
  refine ⟨?_, ?_, ?_, ?_, ?_⟩
  · simp [withF1_getLsbD, withF2_getLsbD, withF9_getLsbD]
  · apply BitVec.eq_of_getLsbD_eq; intro i hi
    simp [withF1_getLsbD, withF2_getLsbD, withF9_getLsbD, hi, show ¬ 21 + i < 17 by omega,
      show ¬ 21 + i < 18 by omega, show ¬ 21 + i < 21 by omega, show 21 + i < 29 by omega]
  · apply BitVec.eq_of_getLsbD_eq; intro i hi
    simp [withF1_getLsbD, withF2_getLsbD, hi, show ¬ 18 + i < 17 by omega,
      show ¬ 18 + i < 18 by omega, show 18 + i < 21 by omega]
  · rw [withF1_getLsbD, if_neg (by omega), withF2_getLsbD, if_pos (by omega), withF9_getLsbD, if_pos (by omega)]
  · apply BitVec.eq_of_getLsbD_eq; intro i hi
    simp [withF1_getLsbD, hi]

/-- Program Protection taken on a state that differs from s at most in A and in the note of f1 denies the reference. -/
theorem raise_deniedAt (a f1 : Addr) (v : Word) (k : Nat) (p : Word → Prop) (s : State) (hp : p v) :
    DeniedAt a f1 p s (raise .programProtection (some a) (((capture f1 s).setA v).setFree k)) := by
  constructor
  · intro hr
    have hr' : (((capture f1 s).setA v).setFree k).rep.active = false := by simpa using hr
    obtain ⟨h1, h2, h3, h4, h5, h6, h7⟩ := enter_frame (.uncond .programProtection) (some a) _ hr'
    refine ⟨_, rfl, ⟨?_, ?_⟩, ?_, ?_, ?_, ?_⟩
    · have c : (capture f1 s).ctl.rirIV = s.ctl.rirIV ∧ (capture f1 s).ctl.plrUL = s.ctl.plrUL ∧ (capture f1 s).ctl.plrLL = s.ctl.plrLL := by
        simp only [capture_ctl]; split <;> simp
      simpa [Entered, SameIndex, c, Interrupt.location, UncondInt.location] using h1
    · rw [h7, h6]; simp [enterSelect]
    · simpa [IfrEntered] using h2
    · simpa [SameMemory, wordAt] using h5
    · rw [h3]; simpa using hp
    · rw [h4]; simp
  · intro hr hw
    have hc : capture f1 s = s := by simp [capture, f1Inhibited, hr]
    rw [hc]
    refine ⟨_, rfl, ?_, ?_⟩
    · simp only [FaultedInRepeat, enter, enterRecord, State.setFree_rep, State.setA_rep, hr, hw, if_true, enterRepeatIfr]
      obtain ⟨w, hw'⟩ := Option.isSome_iff_exists.mp hw
      by_cases hh : s.ctl.ifrHold = true
      · simp [hh, SameIndex, SameMemory, wordAt, Interrupt.location, UncondInt.location, enterSelect]
      · have hh' : s.ctl.ifrHold = false := by simpa using hh
        simp [hh', hw', SameIndex, SameMemory, wordAt, Interrupt.location, UncondInt.location, enterSelect, setIfr]
        exact repeatRecord_fields s.ctl.ifr s.rep.j a
    · have : (enter (.uncond .programProtection) (some a) ((s.setA v).setFree k)).a = v := by
        obtain ⟨w, hw'⟩ := Option.isSome_iff_exists.mp hw
        simp only [enter, enterRecord, State.setFree_rep, State.setA_rep, hr, hw, if_true, enterRepeatIfr]
        by_cases hh : s.ctl.ifrHold = true <;> simp [hh, hw', setIfr]
      rw [this]; exact hp

/-- Memory Parity has the fixed location of the bank of the address. -/
theorem parityLocation_bankOf (s : State) (a : Addr) :
    ParityLocation s a ((UncondInt.memoryParity (bankOf s a)).location s.cfg) := by
  have loc : ∀ (c : Config) (b : BitVec 2),
      [0o3#15, 0o4#15, 0o23#15, 0o27#15][b.toNat]? = some ((UncondInt.memoryParity b).location c) := by
    intro c b
    have : b = 0#2 ∨ b = 1#2 ∨ b = 2#2 ∨ b = 3#2 := by revert b; decide
    rcases this with rfl | rfl | rfl | rfl <;> rfl
  unfold ParityLocation bankOf
  cases s.panel.bankMode
  · exact List.mem_of_getElem? (loc _ _)
  · have h : a.toNat / 2 ^ 15 = (a.extractLsb' 15 2).toNat := by
      rw [BitVec.extractLsb'_toNat, Nat.shiftRight_eq_div_pow]
      have := a.isLt
      exact (Nat.mod_eq_of_lt (by omega)).symm
    simp only [h]; exact loc _ _

/-- A reference that finds wrong parity outside a Repeat sequence enters Memory Parity and changes nothing else. -/
theorem parityStop_faultAt (a : Addr) (s : State) (h : s.rep.active = false) :
    ParityFaultAt a s.pc s s (fun t => SameMemory s t ∧ t.a = s.a) (parityStop a s) := by
  have key : ∀ r k, ParityLocation s a ((UncondInt.memoryParity (bankOf s a)).location s.cfg) ∧
      EnteredFault ((UncondInt.memoryParity (bankOf s a)).location s.cfg) (s.setPc r)
        (enter (.uncond (.memoryParity (bankOf s a))) (some a) ((s.setPc r).setFree k)) ∧
      IfrEntered s (enter (.uncond (.memoryParity (bankOf s a))) (some a) ((s.setPc r).setFree k)) ∧
      (enter (.uncond (.memoryParity (bankOf s a))) (some a) ((s.setPc r).setFree k)).q = s.q ∧
      SameMemory s (enter (.uncond (.memoryParity (bankOf s a))) (some a) ((s.setPc r).setFree k)) ∧
      (enter (.uncond (.memoryParity (bankOf s a))) (some a) ((s.setPc r).setFree k)).a = s.a := by
    intro r k
    have hr : ((s.setPc r).setFree k).rep.active = false := by simpa using h
    obtain ⟨h1, h2, h3, h4, h5, h6, h7⟩ := enter_frame (.uncond (.memoryParity (bankOf s a))) (some a) _ hr
    refine ⟨parityLocation_bankOf s a, ⟨?_, ?_⟩, ?_, ?_, ?_, ?_⟩
    · simpa [Entered, SameIndex, Interrupt.location] using h1
    · rw [h7, h6]; simp [enterSelect]
    · simpa [IfrEntered] using h2
    · rw [h4]; simp
    · simpa [SameMemory, wordAt] using h5
    · rw [h3]; simp
  unfold parityStop
  simp only [h, Bool.false_or]
  by_cases ho : s.entryOpen = true
  · rw [if_pos ho]
    obtain ⟨k1, k2, k3, k4, k5⟩ := key s.pc s.free
    exact ⟨_, rfl, _, s.pc, k1, .inl rfl, k2, k3, k4, k5⟩
  · rw [if_neg ho]
    have ho' : s.entryOpen = false := by simpa using ho
    by_cases hc : freeChoice s = true
    · obtain ⟨k1, k2, k3, k4, k5⟩ := key s.pc (s.free + 1)
      rw [if_pos hc]
      exact ⟨_, rfl, _, s.pc, k1, .inl rfl, k2, k3, k4, k5⟩
    · obtain ⟨k1, k2, k3, k4, k5⟩ := key (s.pc - 1) (s.free + 1)
      rw [if_neg hc]
      exact ⟨_, rfl, _, s.pc - 1, k1, .inr ⟨ho', rfl⟩, k2, k3, k4, k5⟩

/-- The same inside a Repeat sequence: P goes back and the IFR records the Repeat with the address. -/
theorem parityStop_faultedInRepeat (a : Addr) (s : State) (h : s.rep.active = true) (hw : s.rep.word.isSome = true) :
    Answers (parityStop a s) fun t => ∃ n, ParityLocation s a n ∧ FaultedInRepeat n a s t ∧ t.a = s.a := by
  unfold parityStop
  simp only [h, Bool.true_or, if_true]
  refine ⟨_, rfl, _, parityLocation_bankOf s a, ?_, ?_⟩
  · simp only [FaultedInRepeat, enter, enterRecord, h, hw, if_true, enterRepeatIfr]
    obtain ⟨w, hw'⟩ := Option.isSome_iff_exists.mp hw
    by_cases hh : s.ctl.ifrHold = true
    · simp [hh, SameIndex, SameMemory, wordAt, Interrupt.location, enterSelect]
    · have hh' : s.ctl.ifrHold = false := by simpa using hh
      simp [hh', hw', SameIndex, SameMemory, wordAt, Interrupt.location, enterSelect, setIfr]
      exact repeatRecord_fields s.ctl.ifr s.rep.j a
  · obtain ⟨w, hw'⟩ := Option.isSome_iff_exists.mp hw
    simp only [enter, enterRecord, h, hw, if_true, enterRepeatIfr]
    by_cases hh : s.ctl.ifrHold = true <;> simp [hh, hw', setIfr]

/-- What a write by another agent leaves at every address. -/
theorem wordAt_agentStore (a x : Addr) (p : Part) (v : Word) (s : State) :
    wordAt (agentStore a p v s) x = if a = x then mergePart p (wordAt s a) v else wordAt s x := by
  unfold wordAt agentStore dropOverlap
  simp only [State.setOverlap_mem, State.setParity_mem, State.setMem_mem, Memory.get_set, BitVec.toNat_inj]
  rfl

/-- After a write by another agent no fetch can see what the CPU overwrote there before. -/
theorem agentStore_overlap (a : Addr) (p : Part) (v : Word) (s : State) : ∀ c ∈ (agentStore a p v s).overlap, c.1 ≠ a := by
  intro c hc
  simp only [agentStore, dropOverlap, State.setOverlap_overlap, List.mem_filter, bne_iff_ne, ne_eq] at hc
  exact hc.2

end Sys2Proof.Machine
end

