-- ==== Sys2Proof/Laws/PerInstr.lean ====
section
/-! SUPPORT. Per-instruction laws: the word of every instruction lies in its row of the opcode table. -/

namespace Sys2Proof.Laws.TableRow

open Sys2Proof

/-- The row of spec/opcode_table.json: the fixed upper six bits, and for a 77 word the six bits below them. -/
def row : Instr → BitVec 6 × Option (BitVec 6)
  | .illegal00 _ _ _ _ => (0#6, none)
  | .rightShiftQ _ _ _ _ => (1#6, none)
  | .rightShiftA _ _ _ _ => (2#6, none)
  | .rightShiftAq _ _ _ _ => (3#6, none)
  | .compare _ _ _ _ => (4#6, none)
  | .leftShiftQ _ _ _ _ => (5#6, none)
  | .leftShiftA _ _ _ _ => (6#6, none)
  | .leftShiftAq _ _ _ _ => (7#6, none)
  | .enterQ _ _ _ _ => (8#6, none)
  | .enterA _ _ _ _ => (9#6, none)
  | .enterB _ _ _ _ => (10#6, none)
  | .sendExternalFunction _ _ _ _ => (11#6, none)
  | .storeQ _ _ _ _ => (12#6, none)
  | .storeA _ _ _ _ => (13#6, none)
  | .storeB _ _ _ _ => (14#6, none)
  | .storeChannel _ _ _ _ => (15#6, none)
  | .addA _ _ _ _ => (16#6, none)
  | .subtractA _ _ _ _ => (17#6, none)
  | .multiply _ _ _ _ => (18#6, none)
  | .divide _ _ _ _ => (19#6, none)
  | .replaceAPlusY _ _ _ _ => (20#6, none)
  | .replaceAMinusY _ _ _ _ => (21#6, none)
  | .addQ _ _ _ _ => (22#6, none)
  | .subtractQ _ _ _ _ => (23#6, none)
  | .enterYPlusQ _ _ _ _ => (24#6, none)
  | .enterYMinusQ _ _ _ _ => (25#6, none)
  | .storeAPlusQ _ _ _ _ => (26#6, none)
  | .storeAMinusQ _ _ _ _ => (27#6, none)
  | .replaceYPlusQ _ _ _ _ => (28#6, none)
  | .replaceYMinusQ _ _ _ _ => (29#6, none)
  | .replaceYPlus1 _ _ _ _ => (30#6, none)
  | .replaceYMinus1 _ _ _ _ => (31#6, none)
  | .enterLp _ _ _ _ => (32#6, none)
  | .addLp _ _ _ _ => (33#6, none)
  | .subtractLp _ _ _ _ => (34#6, none)
  | .compareMasked _ _ _ _ => (35#6, none)
  | .replaceLp _ _ _ _ => (36#6, none)
  | .replaceAPlusLp _ _ _ _ => (37#6, none)
  | .replaceAMinusLp _ _ _ _ => (38#6, none)
  | .storeLp _ _ _ _ => (39#6, none)
  | .selectiveSet _ _ _ _ => (40#6, none)
  | .selectiveComplement _ _ _ _ => (41#6, none)
  | .selectiveClear _ _ _ _ => (42#6, none)
  | .selectiveSubstitute _ _ _ _ => (43#6, none)
  | .replaceSelectiveSet _ _ _ _ => (44#6, none)
  | .replaceSelectiveComplement _ _ _ _ => (45#6, none)
  | .replaceSelectiveClear _ _ _ _ => (46#6, none)
  | .replaceSelectiveSubstitute _ _ _ _ => (47#6, none)
  | .jumpArithmetic _ _ _ _ => (48#6, none)
  | .jumpManual _ _ _ _ => (49#6, none)
  | .jumpActiveInput _ _ _ _ => (50#6, none)
  | .jumpActiveOutput _ _ _ _ => (51#6, none)
  | .returnJumpArithmetic _ _ _ _ => (52#6, none)
  | .returnJumpManual _ _ _ _ => (53#6, none)
  | .terminateInput _ _ _ _ => (54#6, none)
  | .terminateOutput _ _ _ _ => (55#6, none)
  | .repeatInstr _ _ _ _ => (56#6, none)
  | .bSkip _ _ _ _ => (57#6, none)
  | .bJump _ _ _ _ => (58#6, none)
  | .activateInput _ _ _ _ => (59#6, none)
  | .activateOutput _ _ _ _ => (60#6, none)
  | .activateInputMonitor _ _ _ _ => (61#6, none)
  | .activateOutputMonitor _ _ _ _ => (62#6, none)
  | .illegal7700 _ _ => (63#6, some 0#6)
  | .fpAdd _ _ => (63#6, some 1#6)
  | .fpSubtract _ _ => (63#6, some 2#6)
  | .fpMultiply _ _ => (63#6, some 3#6)
  | .unassigned7704 _ _ => (63#6, some 4#6)
  | .fpDivide _ _ => (63#6, some 5#6)
  | .fpPack _ _ => (63#6, some 6#6)
  | .fpUnpack _ _ => (63#6, some 7#6)
  | .decimalTest _ _ => (63#6, some 8#6)
  | .decimalAdd _ _ => (63#6, some 9#6)
  | .decimalSubtract _ _ => (63#6, some 10#6)
  | .decimalCompareEqual _ _ => (63#6, some 11#6)
  | .decimalComplement _ _ => (63#6, some 12#6)
  | .decimalAddCarry _ _ => (63#6, some 13#6)
  | .decimalSubtractBorrow _ _ => (63#6, some 14#6)
  | .decimalCompareLess _ _ => (63#6, some 15#6)
  | .unassigned7720 _ _ => (63#6, some 16#6)
  | .enterAq _ _ => (63#6, some 17#6)
  | .addAq _ _ => (63#6, some 18#6)
  | .compareAqEqual _ _ => (63#6, some 19#6)
  | .complementAq _ _ => (63#6, some 20#6)
  | .storeAq _ _ => (63#6, some 21#6)
  | .subtractAq _ _ => (63#6, some 22#6)
  | .compareAqLess _ _ => (63#6, some 23#6)
  | .scaleFactorShift _ _ => (63#6, some 24#6)
  | .charPackLower _ _ => (63#6, some 25#6)
  | .charPackUpper _ _ => (63#6, some 26#6)
  | .decimalConvertLower _ _ => (63#6, some 27#6)
  | .decimalConvertUpper _ _ => (63#6, some 28#6)
  | .charUnpackLower _ _ => (63#6, some 29#6)
  | .charUnpackUpper _ _ => (63#6, some 30#6)
  | .executeRemote _ _ => (63#6, some 31#6)
  | .enterB0Jump _ _ => (63#6, some 32#6)
  | .enterB1Jump _ _ => (63#6, some 33#6)
  | .enterB2Jump _ _ => (63#6, some 34#6)
  | .enterB3Jump _ _ => (63#6, some 35#6)
  | .enterB4Jump _ _ => (63#6, some 36#6)
  | .enterB5Jump _ _ => (63#6, some 37#6)
  | .enterB6Jump _ _ => (63#6, some 38#6)
  | .enterB7Jump _ _ => (63#6, some 39#6)
  | .unassigned7750 _ _ => (63#6, some 40#6)
  | .logicalRightShiftQ _ _ => (63#6, some 41#6)
  | .testAndSet _ _ => (63#6, some 42#6)
  | .maskedAlphaEqual _ _ => (63#6, some 43#6)
  | .executiveReturn _ _ => (63#6, some 44#6)
  | .logicalRightShiftA _ _ => (63#6, some 45#6)
  | .logicalRightShiftAq _ _ => (63#6, some 46#6)
  | .maskedAlphaLess _ _ => (63#6, some 47#6)
  | .unassigned7760 _ _ => (63#6, some 48#6)
  | .enterIfrRir _ _ => (63#6, some 49#6)
  | .loadPlr _ _ => (63#6, some 50#6)
  | .unassigned7763 _ _ => (63#6, some 51#6)
  | .unassigned7764 _ _ => (63#6, some 52#6)
  | .storeIfr _ _ => (63#6, some 53#6)
  | .enterRir _ _ => (63#6, some 54#6)
  | .unassigned7767 _ _ => (63#6, some 55#6)
  | .initiateSyncInterrupt _ _ => (63#6, some 56#6)
  | .enterBWorker _ _ => (63#6, some 57#6)
  | .storeChannelNumber _ _ => (63#6, some 58#6)
  | .enterCsr _ _ => (63#6, some 59#6)
  | .unassigned7774 _ _ => (63#6, some 60#6)
  | .storeBWorker _ _ => (63#6, some 61#6)
  | .unassigned7776 _ _ => (63#6, some 62#6)
  | .unassigned7777 _ _ => (63#6, some 63#6)

/-- The encoded word has the fixed bits of its row. -/
def Statement (i : Instr) : Prop :=
  fieldF (encode i) = (row i).1 ∧ ∀ g, (row i).2 = some g → fieldG (encode i) = g

theorem illegal00 (j k b : BitVec 3) (y : BitVec 15) : Statement (.illegal00 j k b y) :=
  ⟨fieldF_normalWord _ j k b y, fun _ h => nomatch h⟩

theorem rightShiftQ (j k b : BitVec 3) (y : BitVec 15) : Statement (.rightShiftQ j k b y) :=
  ⟨fieldF_normalWord _ j k b y, fun _ h => nomatch h⟩

theorem rightShiftA (j k b : BitVec 3) (y : BitVec 15) : Statement (.rightShiftA j k b y) :=
  ⟨fieldF_normalWord _ j k b y, fun _ h => nomatch h⟩

theorem rightShiftAq (j k b : BitVec 3) (y : BitVec 15) : Statement (.rightShiftAq j k b y) :=
  ⟨fieldF_normalWord _ j k b y, fun _ h => nomatch h⟩

theorem compare (j k b : BitVec 3) (y : BitVec 15) : Statement (.compare j k b y) :=
  ⟨fieldF_normalWord _ j k b y, fun _ h => nomatch h⟩

theorem leftShiftQ (j k b : BitVec 3) (y : BitVec 15) : Statement (.leftShiftQ j k b y) :=
  ⟨fieldF_normalWord _ j k b y, fun _ h => nomatch h⟩

theorem leftShiftA (j k b : BitVec 3) (y : BitVec 15) : Statement (.leftShiftA j k b y) :=
  ⟨fieldF_normalWord _ j k b y, fun _ h => nomatch h⟩

theorem leftShiftAq (j k b : BitVec 3) (y : BitVec 15) : Statement (.leftShiftAq j k b y) :=
  ⟨fieldF_normalWord _ j k b y, fun _ h => nomatch h⟩

theorem enterQ (j k b : BitVec 3) (y : BitVec 15) : Statement (.enterQ j k b y) :=
  ⟨fieldF_normalWord _ j k b y, fun _ h => nomatch h⟩

theorem enterA (j k b : BitVec 3) (y : BitVec 15) : Statement (.enterA j k b y) :=
  ⟨fieldF_normalWord _ j k b y, fun _ h => nomatch h⟩

theorem enterB (j k b : BitVec 3) (y : BitVec 15) : Statement (.enterB j k b y) :=
  ⟨fieldF_normalWord _ j k b y, fun _ h => nomatch h⟩

theorem sendExternalFunction (jh : BitVec 4) (kh : BitVec 2) (b : BitVec 3) (y : BitVec 15) : Statement (.sendExternalFunction jh kh b y) :=
  ⟨fieldF_ioWord _ jh kh b y, fun _ h => nomatch h⟩

theorem storeQ (j k b : BitVec 3) (y : BitVec 15) : Statement (.storeQ j k b y) :=
  ⟨fieldF_normalWord _ j k b y, fun _ h => nomatch h⟩

theorem storeA (j k b : BitVec 3) (y : BitVec 15) : Statement (.storeA j k b y) :=
  ⟨fieldF_normalWord _ j k b y, fun _ h => nomatch h⟩

theorem storeB (j k b : BitVec 3) (y : BitVec 15) : Statement (.storeB j k b y) :=
  ⟨fieldF_normalWord _ j k b y, fun _ h => nomatch h⟩

theorem storeChannel (jh : BitVec 4) (kh : BitVec 2) (b : BitVec 3) (y : BitVec 15) : Statement (.storeChannel jh kh b y) :=
  ⟨fieldF_ioWord _ jh kh b y, fun _ h => nomatch h⟩

theorem addA (j k b : BitVec 3) (y : BitVec 15) : Statement (.addA j k b y) :=
  ⟨fieldF_normalWord _ j k b y, fun _ h => nomatch h⟩

theorem subtractA (j k b : BitVec 3) (y : BitVec 15) : Statement (.subtractA j k b y) :=
  ⟨fieldF_normalWord _ j k b y, fun _ h => nomatch h⟩

theorem multiply (j k b : BitVec 3) (y : BitVec 15) : Statement (.multiply j k b y) :=
  ⟨fieldF_normalWord _ j k b y, fun _ h => nomatch h⟩

theorem divide (j k b : BitVec 3) (y : BitVec 15) : Statement (.divide j k b y) :=
  ⟨fieldF_normalWord _ j k b y, fun _ h => nomatch h⟩

theorem replaceAPlusY (j k b : BitVec 3) (y : BitVec 15) : Statement (.replaceAPlusY j k b y) :=
  ⟨fieldF_normalWord _ j k b y, fun _ h => nomatch h⟩

theorem replaceAMinusY (j k b : BitVec 3) (y : BitVec 15) : Statement (.replaceAMinusY j k b y) :=
  ⟨fieldF_normalWord _ j k b y, fun _ h => nomatch h⟩

theorem addQ (j k b : BitVec 3) (y : BitVec 15) : Statement (.addQ j k b y) :=
  ⟨fieldF_normalWord _ j k b y, fun _ h => nomatch h⟩

theorem subtractQ (j k b : BitVec 3) (y : BitVec 15) : Statement (.subtractQ j k b y) :=
  ⟨fieldF_normalWord _ j k b y, fun _ h => nomatch h⟩

theorem enterYPlusQ (j k b : BitVec 3) (y : BitVec 15) : Statement (.enterYPlusQ j k b y) :=
  ⟨fieldF_normalWord _ j k b y, fun _ h => nomatch h⟩

theorem enterYMinusQ (j k b : BitVec 3) (y : BitVec 15) : Statement (.enterYMinusQ j k b y) :=
  ⟨fieldF_normalWord _ j k b y, fun _ h => nomatch h⟩

theorem storeAPlusQ (j k b : BitVec 3) (y : BitVec 15) : Statement (.storeAPlusQ j k b y) :=
  ⟨fieldF_normalWord _ j k b y, fun _ h => nomatch h⟩

theorem storeAMinusQ (j k b : BitVec 3) (y : BitVec 15) : Statement (.storeAMinusQ j k b y) :=
  ⟨fieldF_normalWord _ j k b y, fun _ h => nomatch h⟩

theorem replaceYPlusQ (j k b : BitVec 3) (y : BitVec 15) : Statement (.replaceYPlusQ j k b y) :=
  ⟨fieldF_normalWord _ j k b y, fun _ h => nomatch h⟩

theorem replaceYMinusQ (j k b : BitVec 3) (y : BitVec 15) : Statement (.replaceYMinusQ j k b y) :=
  ⟨fieldF_normalWord _ j k b y, fun _ h => nomatch h⟩

theorem replaceYPlus1 (j k b : BitVec 3) (y : BitVec 15) : Statement (.replaceYPlus1 j k b y) :=
  ⟨fieldF_normalWord _ j k b y, fun _ h => nomatch h⟩

theorem replaceYMinus1 (j k b : BitVec 3) (y : BitVec 15) : Statement (.replaceYMinus1 j k b y) :=
  ⟨fieldF_normalWord _ j k b y, fun _ h => nomatch h⟩

theorem enterLp (j k b : BitVec 3) (y : BitVec 15) : Statement (.enterLp j k b y) :=
  ⟨fieldF_normalWord _ j k b y, fun _ h => nomatch h⟩

theorem addLp (j k b : BitVec 3) (y : BitVec 15) : Statement (.addLp j k b y) :=
  ⟨fieldF_normalWord _ j k b y, fun _ h => nomatch h⟩

theorem subtractLp (j k b : BitVec 3) (y : BitVec 15) : Statement (.subtractLp j k b y) :=
  ⟨fieldF_normalWord _ j k b y, fun _ h => nomatch h⟩

theorem compareMasked (j k b : BitVec 3) (y : BitVec 15) : Statement (.compareMasked j k b y) :=
  ⟨fieldF_normalWord _ j k b y, fun _ h => nomatch h⟩

theorem replaceLp (j k b : BitVec 3) (y : BitVec 15) : Statement (.replaceLp j k b y) :=
  ⟨fieldF_normalWord _ j k b y, fun _ h => nomatch h⟩

theorem replaceAPlusLp (j k b : BitVec 3) (y : BitVec 15) : Statement (.replaceAPlusLp j k b y) :=
  ⟨fieldF_normalWord _ j k b y, fun _ h => nomatch h⟩

theorem replaceAMinusLp (j k b : BitVec 3) (y : BitVec 15) : Statement (.replaceAMinusLp j k b y) :=
  ⟨fieldF_normalWord _ j k b y, fun _ h => nomatch h⟩

theorem storeLp (j k b : BitVec 3) (y : BitVec 15) : Statement (.storeLp j k b y) :=
  ⟨fieldF_normalWord _ j k b y, fun _ h => nomatch h⟩

theorem selectiveSet (j k b : BitVec 3) (y : BitVec 15) : Statement (.selectiveSet j k b y) :=
  ⟨fieldF_normalWord _ j k b y, fun _ h => nomatch h⟩

theorem selectiveComplement (j k b : BitVec 3) (y : BitVec 15) : Statement (.selectiveComplement j k b y) :=
  ⟨fieldF_normalWord _ j k b y, fun _ h => nomatch h⟩

theorem selectiveClear (j k b : BitVec 3) (y : BitVec 15) : Statement (.selectiveClear j k b y) :=
  ⟨fieldF_normalWord _ j k b y, fun _ h => nomatch h⟩

theorem selectiveSubstitute (j k b : BitVec 3) (y : BitVec 15) : Statement (.selectiveSubstitute j k b y) :=
  ⟨fieldF_normalWord _ j k b y, fun _ h => nomatch h⟩

theorem replaceSelectiveSet (j k b : BitVec 3) (y : BitVec 15) : Statement (.replaceSelectiveSet j k b y) :=
  ⟨fieldF_normalWord _ j k b y, fun _ h => nomatch h⟩

theorem replaceSelectiveComplement (j k b : BitVec 3) (y : BitVec 15) : Statement (.replaceSelectiveComplement j k b y) :=
  ⟨fieldF_normalWord _ j k b y, fun _ h => nomatch h⟩

theorem replaceSelectiveClear (j k b : BitVec 3) (y : BitVec 15) : Statement (.replaceSelectiveClear j k b y) :=
  ⟨fieldF_normalWord _ j k b y, fun _ h => nomatch h⟩

theorem replaceSelectiveSubstitute (j k b : BitVec 3) (y : BitVec 15) : Statement (.replaceSelectiveSubstitute j k b y) :=
  ⟨fieldF_normalWord _ j k b y, fun _ h => nomatch h⟩

theorem jumpArithmetic (j k b : BitVec 3) (y : BitVec 15) : Statement (.jumpArithmetic j k b y) :=
  ⟨fieldF_normalWord _ j k b y, fun _ h => nomatch h⟩

theorem jumpManual (j k b : BitVec 3) (y : BitVec 15) : Statement (.jumpManual j k b y) :=
  ⟨fieldF_normalWord _ j k b y, fun _ h => nomatch h⟩

theorem jumpActiveInput (jh : BitVec 4) (kh : BitVec 2) (b : BitVec 3) (y : BitVec 15) : Statement (.jumpActiveInput jh kh b y) :=
  ⟨fieldF_ioWord _ jh kh b y, fun _ h => nomatch h⟩

theorem jumpActiveOutput (jh : BitVec 4) (kh : BitVec 2) (b : BitVec 3) (y : BitVec 15) : Statement (.jumpActiveOutput jh kh b y) :=
  ⟨fieldF_ioWord _ jh kh b y, fun _ h => nomatch h⟩

theorem returnJumpArithmetic (j k b : BitVec 3) (y : BitVec 15) : Statement (.returnJumpArithmetic j k b y) :=
  ⟨fieldF_normalWord _ j k b y, fun _ h => nomatch h⟩

theorem returnJumpManual (j k b : BitVec 3) (y : BitVec 15) : Statement (.returnJumpManual j k b y) :=
  ⟨fieldF_normalWord _ j k b y, fun _ h => nomatch h⟩

theorem terminateInput (jh : BitVec 4) (kh : BitVec 2) (b : BitVec 3) (y : BitVec 15) : Statement (.terminateInput jh kh b y) :=
  ⟨fieldF_ioWord _ jh kh b y, fun _ h => nomatch h⟩

theorem terminateOutput (jh : BitVec 4) (kh : BitVec 2) (b : BitVec 3) (y : BitVec 15) : Statement (.terminateOutput jh kh b y) :=
  ⟨fieldF_ioWord _ jh kh b y, fun _ h => nomatch h⟩

theorem repeatInstr (j k b : BitVec 3) (y : BitVec 15) : Statement (.repeatInstr j k b y) :=
  ⟨fieldF_normalWord _ j k b y, fun _ h => nomatch h⟩

theorem bSkip (j k b : BitVec 3) (y : BitVec 15) : Statement (.bSkip j k b y) :=
  ⟨fieldF_normalWord _ j k b y, fun _ h => nomatch h⟩

theorem bJump (j k b : BitVec 3) (y : BitVec 15) : Statement (.bJump j k b y) :=
  ⟨fieldF_normalWord _ j k b y, fun _ h => nomatch h⟩

theorem activateInput (jh : BitVec 4) (kh : BitVec 2) (b : BitVec 3) (y : BitVec 15) : Statement (.activateInput jh kh b y) :=
  ⟨fieldF_ioWord _ jh kh b y, fun _ h => nomatch h⟩

theorem activateOutput (jh : BitVec 4) (kh : BitVec 2) (b : BitVec 3) (y : BitVec 15) : Statement (.activateOutput jh kh b y) :=
  ⟨fieldF_ioWord _ jh kh b y, fun _ h => nomatch h⟩

theorem activateInputMonitor (jh : BitVec 4) (kh : BitVec 2) (b : BitVec 3) (y : BitVec 15) : Statement (.activateInputMonitor jh kh b y) :=
  ⟨fieldF_ioWord _ jh kh b y, fun _ h => nomatch h⟩

theorem activateOutputMonitor (jh : BitVec 4) (kh : BitVec 2) (b : BitVec 3) (y : BitVec 15) : Statement (.activateOutputMonitor jh kh b y) :=
  ⟨fieldF_ioWord _ jh kh b y, fun _ h => nomatch h⟩

theorem illegal7700 (b : BitVec 3) (y : BitVec 15) : Statement (.illegal7700 b y) :=
  ⟨fieldF_word77 _ b y, fun _ h => Option.some.inj h ▸ fieldG_word77 _ b y⟩

theorem fpAdd (b : BitVec 3) (y : BitVec 15) : Statement (.fpAdd b y) :=
  ⟨fieldF_word77 _ b y, fun _ h => Option.some.inj h ▸ fieldG_word77 _ b y⟩

theorem fpSubtract (b : BitVec 3) (y : BitVec 15) : Statement (.fpSubtract b y) :=
  ⟨fieldF_word77 _ b y, fun _ h => Option.some.inj h ▸ fieldG_word77 _ b y⟩

theorem fpMultiply (b : BitVec 3) (y : BitVec 15) : Statement (.fpMultiply b y) :=
  ⟨fieldF_word77 _ b y, fun _ h => Option.some.inj h ▸ fieldG_word77 _ b y⟩

theorem unassigned7704 (b : BitVec 3) (y : BitVec 15) : Statement (.unassigned7704 b y) :=
  ⟨fieldF_word77 _ b y, fun _ h => Option.some.inj h ▸ fieldG_word77 _ b y⟩

theorem fpDivide (b : BitVec 3) (y : BitVec 15) : Statement (.fpDivide b y) :=
  ⟨fieldF_word77 _ b y, fun _ h => Option.some.inj h ▸ fieldG_word77 _ b y⟩

theorem fpPack (b : BitVec 3) (y : BitVec 15) : Statement (.fpPack b y) :=
  ⟨fieldF_word77 _ b y, fun _ h => Option.some.inj h ▸ fieldG_word77 _ b y⟩

theorem fpUnpack (b : BitVec 3) (y : BitVec 15) : Statement (.fpUnpack b y) :=
  ⟨fieldF_word77 _ b y, fun _ h => Option.some.inj h ▸ fieldG_word77 _ b y⟩

theorem decimalTest (b : BitVec 3) (y : BitVec 15) : Statement (.decimalTest b y) :=
  ⟨fieldF_word77 _ b y, fun _ h => Option.some.inj h ▸ fieldG_word77 _ b y⟩

theorem decimalAdd (b : BitVec 3) (y : BitVec 15) : Statement (.decimalAdd b y) :=
  ⟨fieldF_word77 _ b y, fun _ h => Option.some.inj h ▸ fieldG_word77 _ b y⟩

theorem decimalSubtract (b : BitVec 3) (y : BitVec 15) : Statement (.decimalSubtract b y) :=
  ⟨fieldF_word77 _ b y, fun _ h => Option.some.inj h ▸ fieldG_word77 _ b y⟩

theorem decimalCompareEqual (b : BitVec 3) (y : BitVec 15) : Statement (.decimalCompareEqual b y) :=
  ⟨fieldF_word77 _ b y, fun _ h => Option.some.inj h ▸ fieldG_word77 _ b y⟩

theorem decimalComplement (b : BitVec 3) (y : BitVec 15) : Statement (.decimalComplement b y) :=
  ⟨fieldF_word77 _ b y, fun _ h => Option.some.inj h ▸ fieldG_word77 _ b y⟩

theorem decimalAddCarry (b : BitVec 3) (y : BitVec 15) : Statement (.decimalAddCarry b y) :=
  ⟨fieldF_word77 _ b y, fun _ h => Option.some.inj h ▸ fieldG_word77 _ b y⟩

theorem decimalSubtractBorrow (b : BitVec 3) (y : BitVec 15) : Statement (.decimalSubtractBorrow b y) :=
  ⟨fieldF_word77 _ b y, fun _ h => Option.some.inj h ▸ fieldG_word77 _ b y⟩

theorem decimalCompareLess (b : BitVec 3) (y : BitVec 15) : Statement (.decimalCompareLess b y) :=
  ⟨fieldF_word77 _ b y, fun _ h => Option.some.inj h ▸ fieldG_word77 _ b y⟩

theorem unassigned7720 (b : BitVec 3) (y : BitVec 15) : Statement (.unassigned7720 b y) :=
  ⟨fieldF_word77 _ b y, fun _ h => Option.some.inj h ▸ fieldG_word77 _ b y⟩

theorem enterAq (b : BitVec 3) (y : BitVec 15) : Statement (.enterAq b y) :=
  ⟨fieldF_word77 _ b y, fun _ h => Option.some.inj h ▸ fieldG_word77 _ b y⟩

theorem addAq (b : BitVec 3) (y : BitVec 15) : Statement (.addAq b y) :=
  ⟨fieldF_word77 _ b y, fun _ h => Option.some.inj h ▸ fieldG_word77 _ b y⟩

theorem compareAqEqual (b : BitVec 3) (y : BitVec 15) : Statement (.compareAqEqual b y) :=
  ⟨fieldF_word77 _ b y, fun _ h => Option.some.inj h ▸ fieldG_word77 _ b y⟩

theorem complementAq (b : BitVec 3) (y : BitVec 15) : Statement (.complementAq b y) :=
  ⟨fieldF_word77 _ b y, fun _ h => Option.some.inj h ▸ fieldG_word77 _ b y⟩

theorem storeAq (b : BitVec 3) (y : BitVec 15) : Statement (.storeAq b y) :=
  ⟨fieldF_word77 _ b y, fun _ h => Option.some.inj h ▸ fieldG_word77 _ b y⟩

theorem subtractAq (b : BitVec 3) (y : BitVec 15) : Statement (.subtractAq b y) :=
  ⟨fieldF_word77 _ b y, fun _ h => Option.some.inj h ▸ fieldG_word77 _ b y⟩

theorem compareAqLess (b : BitVec 3) (y : BitVec 15) : Statement (.compareAqLess b y) :=
  ⟨fieldF_word77 _ b y, fun _ h => Option.some.inj h ▸ fieldG_word77 _ b y⟩

theorem scaleFactorShift (b : BitVec 3) (y : BitVec 15) : Statement (.scaleFactorShift b y) :=
  ⟨fieldF_word77 _ b y, fun _ h => Option.some.inj h ▸ fieldG_word77 _ b y⟩

theorem charPackLower (b : BitVec 3) (y : BitVec 15) : Statement (.charPackLower b y) :=
  ⟨fieldF_word77 _ b y, fun _ h => Option.some.inj h ▸ fieldG_word77 _ b y⟩

theorem charPackUpper (b : BitVec 3) (y : BitVec 15) : Statement (.charPackUpper b y) :=
  ⟨fieldF_word77 _ b y, fun _ h => Option.some.inj h ▸ fieldG_word77 _ b y⟩

theorem decimalConvertLower (b : BitVec 3) (y : BitVec 15) : Statement (.decimalConvertLower b y) :=
  ⟨fieldF_word77 _ b y, fun _ h => Option.some.inj h ▸ fieldG_word77 _ b y⟩

theorem decimalConvertUpper (b : BitVec 3) (y : BitVec 15) : Statement (.decimalConvertUpper b y) :=
  ⟨fieldF_word77 _ b y, fun _ h => Option.some.inj h ▸ fieldG_word77 _ b y⟩

theorem charUnpackLower (b : BitVec 3) (y : BitVec 15) : Statement (.charUnpackLower b y) :=
  ⟨fieldF_word77 _ b y, fun _ h => Option.some.inj h ▸ fieldG_word77 _ b y⟩

theorem charUnpackUpper (b : BitVec 3) (y : BitVec 15) : Statement (.charUnpackUpper b y) :=
  ⟨fieldF_word77 _ b y, fun _ h => Option.some.inj h ▸ fieldG_word77 _ b y⟩

theorem executeRemote (b : BitVec 3) (y : BitVec 15) : Statement (.executeRemote b y) :=
  ⟨fieldF_word77 _ b y, fun _ h => Option.some.inj h ▸ fieldG_word77 _ b y⟩

theorem enterB0Jump (b : BitVec 3) (y : BitVec 15) : Statement (.enterB0Jump b y) :=
  ⟨fieldF_word77 _ b y, fun _ h => Option.some.inj h ▸ fieldG_word77 _ b y⟩

theorem enterB1Jump (b : BitVec 3) (y : BitVec 15) : Statement (.enterB1Jump b y) :=
  ⟨fieldF_word77 _ b y, fun _ h => Option.some.inj h ▸ fieldG_word77 _ b y⟩

theorem enterB2Jump (b : BitVec 3) (y : BitVec 15) : Statement (.enterB2Jump b y) :=
  ⟨fieldF_word77 _ b y, fun _ h => Option.some.inj h ▸ fieldG_word77 _ b y⟩

theorem enterB3Jump (b : BitVec 3) (y : BitVec 15) : Statement (.enterB3Jump b y) :=
  ⟨fieldF_word77 _ b y, fun _ h => Option.some.inj h ▸ fieldG_word77 _ b y⟩

theorem enterB4Jump (b : BitVec 3) (y : BitVec 15) : Statement (.enterB4Jump b y) :=
  ⟨fieldF_word77 _ b y, fun _ h => Option.some.inj h ▸ fieldG_word77 _ b y⟩

theorem enterB5Jump (b : BitVec 3) (y : BitVec 15) : Statement (.enterB5Jump b y) :=
  ⟨fieldF_word77 _ b y, fun _ h => Option.some.inj h ▸ fieldG_word77 _ b y⟩

theorem enterB6Jump (b : BitVec 3) (y : BitVec 15) : Statement (.enterB6Jump b y) :=
  ⟨fieldF_word77 _ b y, fun _ h => Option.some.inj h ▸ fieldG_word77 _ b y⟩

theorem enterB7Jump (b : BitVec 3) (y : BitVec 15) : Statement (.enterB7Jump b y) :=
  ⟨fieldF_word77 _ b y, fun _ h => Option.some.inj h ▸ fieldG_word77 _ b y⟩

theorem unassigned7750 (b : BitVec 3) (y : BitVec 15) : Statement (.unassigned7750 b y) :=
  ⟨fieldF_word77 _ b y, fun _ h => Option.some.inj h ▸ fieldG_word77 _ b y⟩

theorem logicalRightShiftQ (b : BitVec 3) (y : BitVec 15) : Statement (.logicalRightShiftQ b y) :=
  ⟨fieldF_word77 _ b y, fun _ h => Option.some.inj h ▸ fieldG_word77 _ b y⟩

theorem testAndSet (b : BitVec 3) (y : BitVec 15) : Statement (.testAndSet b y) :=
  ⟨fieldF_word77 _ b y, fun _ h => Option.some.inj h ▸ fieldG_word77 _ b y⟩

theorem maskedAlphaEqual (b : BitVec 3) (y : BitVec 15) : Statement (.maskedAlphaEqual b y) :=
  ⟨fieldF_word77 _ b y, fun _ h => Option.some.inj h ▸ fieldG_word77 _ b y⟩

theorem executiveReturn (b : BitVec 3) (y : BitVec 15) : Statement (.executiveReturn b y) :=
  ⟨fieldF_word77 _ b y, fun _ h => Option.some.inj h ▸ fieldG_word77 _ b y⟩

theorem logicalRightShiftA (b : BitVec 3) (y : BitVec 15) : Statement (.logicalRightShiftA b y) :=
  ⟨fieldF_word77 _ b y, fun _ h => Option.some.inj h ▸ fieldG_word77 _ b y⟩

theorem logicalRightShiftAq (b : BitVec 3) (y : BitVec 15) : Statement (.logicalRightShiftAq b y) :=
  ⟨fieldF_word77 _ b y, fun _ h => Option.some.inj h ▸ fieldG_word77 _ b y⟩

theorem maskedAlphaLess (b : BitVec 3) (y : BitVec 15) : Statement (.maskedAlphaLess b y) :=
  ⟨fieldF_word77 _ b y, fun _ h => Option.some.inj h ▸ fieldG_word77 _ b y⟩

theorem unassigned7760 (b : BitVec 3) (y : BitVec 15) : Statement (.unassigned7760 b y) :=
  ⟨fieldF_word77 _ b y, fun _ h => Option.some.inj h ▸ fieldG_word77 _ b y⟩

theorem enterIfrRir (b : BitVec 3) (y : BitVec 15) : Statement (.enterIfrRir b y) :=
  ⟨fieldF_word77 _ b y, fun _ h => Option.some.inj h ▸ fieldG_word77 _ b y⟩

theorem loadPlr (b : BitVec 3) (y : BitVec 15) : Statement (.loadPlr b y) :=
  ⟨fieldF_word77 _ b y, fun _ h => Option.some.inj h ▸ fieldG_word77 _ b y⟩

theorem unassigned7763 (b : BitVec 3) (y : BitVec 15) : Statement (.unassigned7763 b y) :=
  ⟨fieldF_word77 _ b y, fun _ h => Option.some.inj h ▸ fieldG_word77 _ b y⟩

theorem unassigned7764 (b : BitVec 3) (y : BitVec 15) : Statement (.unassigned7764 b y) :=
  ⟨fieldF_word77 _ b y, fun _ h => Option.some.inj h ▸ fieldG_word77 _ b y⟩

theorem storeIfr (b : BitVec 3) (y : BitVec 15) : Statement (.storeIfr b y) :=
  ⟨fieldF_word77 _ b y, fun _ h => Option.some.inj h ▸ fieldG_word77 _ b y⟩

theorem enterRir (b : BitVec 3) (y : BitVec 15) : Statement (.enterRir b y) :=
  ⟨fieldF_word77 _ b y, fun _ h => Option.some.inj h ▸ fieldG_word77 _ b y⟩

theorem unassigned7767 (b : BitVec 3) (y : BitVec 15) : Statement (.unassigned7767 b y) :=
  ⟨fieldF_word77 _ b y, fun _ h => Option.some.inj h ▸ fieldG_word77 _ b y⟩

theorem initiateSyncInterrupt (b : BitVec 3) (y : BitVec 15) : Statement (.initiateSyncInterrupt b y) :=
  ⟨fieldF_word77 _ b y, fun _ h => Option.some.inj h ▸ fieldG_word77 _ b y⟩

theorem enterBWorker (b : BitVec 3) (y : BitVec 15) : Statement (.enterBWorker b y) :=
  ⟨fieldF_word77 _ b y, fun _ h => Option.some.inj h ▸ fieldG_word77 _ b y⟩

theorem storeChannelNumber (b : BitVec 3) (y : BitVec 15) : Statement (.storeChannelNumber b y) :=
  ⟨fieldF_word77 _ b y, fun _ h => Option.some.inj h ▸ fieldG_word77 _ b y⟩

theorem enterCsr (b : BitVec 3) (y : BitVec 15) : Statement (.enterCsr b y) :=
  ⟨fieldF_word77 _ b y, fun _ h => Option.some.inj h ▸ fieldG_word77 _ b y⟩

theorem unassigned7774 (b : BitVec 3) (y : BitVec 15) : Statement (.unassigned7774 b y) :=
  ⟨fieldF_word77 _ b y, fun _ h => Option.some.inj h ▸ fieldG_word77 _ b y⟩

theorem storeBWorker (b : BitVec 3) (y : BitVec 15) : Statement (.storeBWorker b y) :=
  ⟨fieldF_word77 _ b y, fun _ h => Option.some.inj h ▸ fieldG_word77 _ b y⟩

theorem unassigned7776 (b : BitVec 3) (y : BitVec 15) : Statement (.unassigned7776 b y) :=
  ⟨fieldF_word77 _ b y, fun _ h => Option.some.inj h ▸ fieldG_word77 _ b y⟩

theorem unassigned7777 (b : BitVec 3) (y : BitVec 15) : Statement (.unassigned7777 b y) :=
  ⟨fieldF_word77 _ b y, fun _ h => Option.some.inj h ▸ fieldG_word77 _ b y⟩

end Sys2Proof.Laws.TableRow
end

