-- ==== Sys2Proof/Tests/Slice0.lean ====
section
/-! SUPPORT. Tests: the well-formedness checks refuse what they should; every constructor's decoding on a word written out from
30_encoding.md; single steps with the results of 95_test_vectors.md (named by vector); and for each obligation with hypotheses a state
and operands that meet them. -/

namespace Sys2Proof.Tests

open Sys2Proof Sys2Proof.Machine

/-! ## Well-formedness: one ill-formed term for each check (30_encoding.md R165, R173) -/

/-- R157: k = 0, 4 and 7 are not used in the Replace class. -/
theorem test_replaceK_refused : Instr.wellFormed (.replaceAPlusY 0#3 0#3 0#3 0#15) = false ∧
    Instr.wellFormed (.replaceYMinus1 0#3 4#3 0#3 0#15) = false ∧ Instr.wellFormed (.replaceLp 0#3 7#3 0#3 0#15) = false ∧
    Instr.wellFormed (.replaceAPlusY 7#3 3#3 7#3 0#15) = true := by decide

/-- R173: k = 7 is not used in 23, 47, 50, 52 and 53. -/
theorem test_notSevenK_refused : Instr.wellFormed (.divide 0#3 7#3 0#3 0#15) = false ∧
    Instr.wellFormed (.storeLp 0#3 7#3 0#3 0#15) = false ∧ Instr.wellFormed (.selectiveSet 0#3 7#3 0#3 0#15) = false ∧
    Instr.wellFormed (.selectiveClear 0#3 7#3 0#3 0#15) = false ∧
    Instr.wellFormed (.selectiveSubstitute 0#3 7#3 0#3 0#15) = false ∧
    Instr.wellFormed (.selectiveComplement 0#3 7#3 0#3 0#15) = true := by decide

/-- R165: the j-hat of 13, 17, 62, 63, 66 and 67 must be 0. -/
theorem test_zeroJHat_refused : Instr.wellFormed (.sendExternalFunction 1#4 3#2 0#3 0#15) = false ∧
    Instr.wellFormed (.terminateOutput 8#4 0#2 0#3 0#15) = false ∧
    Instr.wellFormed (.activateOutput 1#4 3#2 0#3 0#15) = true := by decide

/-- R465: the k-hat of 66 must be 0. -/
theorem test_terminateInput_kHat_refused : Instr.wellFormed (.terminateInput 0#4 1#2 0#3 0#15) = false ∧
    Instr.wellFormed (.terminateInput 0#4 0#2 0#3 0#15) = true := by decide

/-- Bits that are no 30-bit word are rejected by name (R140). -/
theorem test_notAWord_refused : decodeBits (2 ^ 30) = .error .notAWord := by decide

/-! ## Decoding: j = 2, k = 5, b = 3, y = 12345, and in the I/O words j-hat = 5, k-hat = 2 (R141 to R143, R180, R181) -/

theorem test_decode_00 :
    decode 0b000000010101011001010011100101#30 = .illegal00 2#3 5#3 3#3 0o12345#15 ∧
    decode 0b000001010101011001010011100101#30 = .rightShiftQ 2#3 5#3 3#3 0o12345#15 ∧
    decode 0b000010010101011001010011100101#30 = .rightShiftA 2#3 5#3 3#3 0o12345#15 ∧
    decode 0b000011010101011001010011100101#30 = .rightShiftAq 2#3 5#3 3#3 0o12345#15 ∧
    decode 0b000100010101011001010011100101#30 = .compare 2#3 5#3 3#3 0o12345#15 ∧
    decode 0b000101010101011001010011100101#30 = .leftShiftQ 2#3 5#3 3#3 0o12345#15 ∧
    decode 0b000110010101011001010011100101#30 = .leftShiftA 2#3 5#3 3#3 0o12345#15 ∧
    decode 0b000111010101011001010011100101#30 = .leftShiftAq 2#3 5#3 3#3 0o12345#15 := by decide

theorem test_decode_01 :
    decode 0b001000010101011001010011100101#30 = .enterQ 2#3 5#3 3#3 0o12345#15 ∧
    decode 0b001001010101011001010011100101#30 = .enterA 2#3 5#3 3#3 0o12345#15 ∧
    decode 0b001010010101011001010011100101#30 = .enterB 2#3 5#3 3#3 0o12345#15 ∧
    decode 0b001011010110011001010011100101#30 = .sendExternalFunction 5#4 2#2 3#3 0o12345#15 ∧
    decode 0b001100010101011001010011100101#30 = .storeQ 2#3 5#3 3#3 0o12345#15 ∧
    decode 0b001101010101011001010011100101#30 = .storeA 2#3 5#3 3#3 0o12345#15 ∧
    decode 0b001110010101011001010011100101#30 = .storeB 2#3 5#3 3#3 0o12345#15 ∧
    decode 0b001111010110011001010011100101#30 = .storeChannel 5#4 2#2 3#3 0o12345#15 := by decide

theorem test_decode_02 :
    decode 0b010000010101011001010011100101#30 = .addA 2#3 5#3 3#3 0o12345#15 ∧
    decode 0b010001010101011001010011100101#30 = .subtractA 2#3 5#3 3#3 0o12345#15 ∧
    decode 0b010010010101011001010011100101#30 = .multiply 2#3 5#3 3#3 0o12345#15 ∧
    decode 0b010011010101011001010011100101#30 = .divide 2#3 5#3 3#3 0o12345#15 ∧
    decode 0b010100010101011001010011100101#30 = .replaceAPlusY 2#3 5#3 3#3 0o12345#15 ∧
    decode 0b010101010101011001010011100101#30 = .replaceAMinusY 2#3 5#3 3#3 0o12345#15 ∧
    decode 0b010110010101011001010011100101#30 = .addQ 2#3 5#3 3#3 0o12345#15 ∧
    decode 0b010111010101011001010011100101#30 = .subtractQ 2#3 5#3 3#3 0o12345#15 := by decide

theorem test_decode_03 :
    decode 0b011000010101011001010011100101#30 = .enterYPlusQ 2#3 5#3 3#3 0o12345#15 ∧
    decode 0b011001010101011001010011100101#30 = .enterYMinusQ 2#3 5#3 3#3 0o12345#15 ∧
    decode 0b011010010101011001010011100101#30 = .storeAPlusQ 2#3 5#3 3#3 0o12345#15 ∧
    decode 0b011011010101011001010011100101#30 = .storeAMinusQ 2#3 5#3 3#3 0o12345#15 ∧
    decode 0b011100010101011001010011100101#30 = .replaceYPlusQ 2#3 5#3 3#3 0o12345#15 ∧
    decode 0b011101010101011001010011100101#30 = .replaceYMinusQ 2#3 5#3 3#3 0o12345#15 ∧
    decode 0b011110010101011001010011100101#30 = .replaceYPlus1 2#3 5#3 3#3 0o12345#15 ∧
    decode 0b011111010101011001010011100101#30 = .replaceYMinus1 2#3 5#3 3#3 0o12345#15 := by decide

theorem test_decode_04 :
    decode 0b100000010101011001010011100101#30 = .enterLp 2#3 5#3 3#3 0o12345#15 ∧
    decode 0b100001010101011001010011100101#30 = .addLp 2#3 5#3 3#3 0o12345#15 ∧
    decode 0b100010010101011001010011100101#30 = .subtractLp 2#3 5#3 3#3 0o12345#15 ∧
    decode 0b100011010101011001010011100101#30 = .compareMasked 2#3 5#3 3#3 0o12345#15 ∧
    decode 0b100100010101011001010011100101#30 = .replaceLp 2#3 5#3 3#3 0o12345#15 ∧
    decode 0b100101010101011001010011100101#30 = .replaceAPlusLp 2#3 5#3 3#3 0o12345#15 ∧
    decode 0b100110010101011001010011100101#30 = .replaceAMinusLp 2#3 5#3 3#3 0o12345#15 ∧
    decode 0b100111010101011001010011100101#30 = .storeLp 2#3 5#3 3#3 0o12345#15 := by decide

theorem test_decode_05 :
    decode 0b101000010101011001010011100101#30 = .selectiveSet 2#3 5#3 3#3 0o12345#15 ∧
    decode 0b101001010101011001010011100101#30 = .selectiveComplement 2#3 5#3 3#3 0o12345#15 ∧
    decode 0b101010010101011001010011100101#30 = .selectiveClear 2#3 5#3 3#3 0o12345#15 ∧
    decode 0b101011010101011001010011100101#30 = .selectiveSubstitute 2#3 5#3 3#3 0o12345#15 ∧
    decode 0b101100010101011001010011100101#30 = .replaceSelectiveSet 2#3 5#3 3#3 0o12345#15 ∧
    decode 0b101101010101011001010011100101#30 = .replaceSelectiveComplement 2#3 5#3 3#3 0o12345#15 ∧
    decode 0b101110010101011001010011100101#30 = .replaceSelectiveClear 2#3 5#3 3#3 0o12345#15 ∧
    decode 0b101111010101011001010011100101#30 = .replaceSelectiveSubstitute 2#3 5#3 3#3 0o12345#15 := by decide

theorem test_decode_06 :
    decode 0b110000010101011001010011100101#30 = .jumpArithmetic 2#3 5#3 3#3 0o12345#15 ∧
    decode 0b110001010101011001010011100101#30 = .jumpManual 2#3 5#3 3#3 0o12345#15 ∧
    decode 0b110010010110011001010011100101#30 = .jumpActiveInput 5#4 2#2 3#3 0o12345#15 ∧
    decode 0b110011010110011001010011100101#30 = .jumpActiveOutput 5#4 2#2 3#3 0o12345#15 ∧
    decode 0b110100010101011001010011100101#30 = .returnJumpArithmetic 2#3 5#3 3#3 0o12345#15 ∧
    decode 0b110101010101011001010011100101#30 = .returnJumpManual 2#3 5#3 3#3 0o12345#15 ∧
    decode 0b110110010110011001010011100101#30 = .terminateInput 5#4 2#2 3#3 0o12345#15 ∧
    decode 0b110111010110011001010011100101#30 = .terminateOutput 5#4 2#2 3#3 0o12345#15 := by decide

theorem test_decode_07 :
    decode 0b111000010101011001010011100101#30 = .repeatInstr 2#3 5#3 3#3 0o12345#15 ∧
    decode 0b111001010101011001010011100101#30 = .bSkip 2#3 5#3 3#3 0o12345#15 ∧
    decode 0b111010010101011001010011100101#30 = .bJump 2#3 5#3 3#3 0o12345#15 ∧
    decode 0b111011010110011001010011100101#30 = .activateInput 5#4 2#2 3#3 0o12345#15 ∧
    decode 0b111100010110011001010011100101#30 = .activateOutput 5#4 2#2 3#3 0o12345#15 ∧
    decode 0b111101010110011001010011100101#30 = .activateInputMonitor 5#4 2#2 3#3 0o12345#15 ∧
    decode 0b111110010110011001010011100101#30 = .activateOutputMonitor 5#4 2#2 3#3 0o12345#15 ∧
    decode 0b111111000000011001010011100101#30 = .illegal7700 3#3 0o12345#15 := by decide

theorem test_decode_08 :
    decode 0b111111000001011001010011100101#30 = .fpAdd 3#3 0o12345#15 ∧
    decode 0b111111000010011001010011100101#30 = .fpSubtract 3#3 0o12345#15 ∧
    decode 0b111111000011011001010011100101#30 = .fpMultiply 3#3 0o12345#15 ∧
    decode 0b111111000100011001010011100101#30 = .unassigned7704 3#3 0o12345#15 ∧
    decode 0b111111000101011001010011100101#30 = .fpDivide 3#3 0o12345#15 ∧
    decode 0b111111000110011001010011100101#30 = .fpPack 3#3 0o12345#15 ∧
    decode 0b111111000111011001010011100101#30 = .fpUnpack 3#3 0o12345#15 ∧
    decode 0b111111001000011001010011100101#30 = .decimalTest 3#3 0o12345#15 := by decide

theorem test_decode_09 :
    decode 0b111111001001011001010011100101#30 = .decimalAdd 3#3 0o12345#15 ∧
    decode 0b111111001010011001010011100101#30 = .decimalSubtract 3#3 0o12345#15 ∧
    decode 0b111111001011011001010011100101#30 = .decimalCompareEqual 3#3 0o12345#15 ∧
    decode 0b111111001100011001010011100101#30 = .decimalComplement 3#3 0o12345#15 ∧
    decode 0b111111001101011001010011100101#30 = .decimalAddCarry 3#3 0o12345#15 ∧
    decode 0b111111001110011001010011100101#30 = .decimalSubtractBorrow 3#3 0o12345#15 ∧
    decode 0b111111001111011001010011100101#30 = .decimalCompareLess 3#3 0o12345#15 ∧
    decode 0b111111010000011001010011100101#30 = .unassigned7720 3#3 0o12345#15 := by decide

theorem test_decode_10 :
    decode 0b111111010001011001010011100101#30 = .enterAq 3#3 0o12345#15 ∧
    decode 0b111111010010011001010011100101#30 = .addAq 3#3 0o12345#15 ∧
    decode 0b111111010011011001010011100101#30 = .compareAqEqual 3#3 0o12345#15 ∧
    decode 0b111111010100011001010011100101#30 = .complementAq 3#3 0o12345#15 ∧
    decode 0b111111010101011001010011100101#30 = .storeAq 3#3 0o12345#15 ∧
    decode 0b111111010110011001010011100101#30 = .subtractAq 3#3 0o12345#15 ∧
    decode 0b111111010111011001010011100101#30 = .compareAqLess 3#3 0o12345#15 ∧
    decode 0b111111011000011001010011100101#30 = .scaleFactorShift 3#3 0o12345#15 := by decide

theorem test_decode_11 :
    decode 0b111111011001011001010011100101#30 = .charPackLower 3#3 0o12345#15 ∧
    decode 0b111111011010011001010011100101#30 = .charPackUpper 3#3 0o12345#15 ∧
    decode 0b111111011011011001010011100101#30 = .decimalConvertLower 3#3 0o12345#15 ∧
    decode 0b111111011100011001010011100101#30 = .decimalConvertUpper 3#3 0o12345#15 ∧
    decode 0b111111011101011001010011100101#30 = .charUnpackLower 3#3 0o12345#15 ∧
    decode 0b111111011110011001010011100101#30 = .charUnpackUpper 3#3 0o12345#15 ∧
    decode 0b111111011111011001010011100101#30 = .executeRemote 3#3 0o12345#15 ∧
    decode 0b111111100000011001010011100101#30 = .enterB0Jump 3#3 0o12345#15 := by decide

theorem test_decode_12 :
    decode 0b111111100001011001010011100101#30 = .enterB1Jump 3#3 0o12345#15 ∧
    decode 0b111111100010011001010011100101#30 = .enterB2Jump 3#3 0o12345#15 ∧
    decode 0b111111100011011001010011100101#30 = .enterB3Jump 3#3 0o12345#15 ∧
    decode 0b111111100100011001010011100101#30 = .enterB4Jump 3#3 0o12345#15 ∧
    decode 0b111111100101011001010011100101#30 = .enterB5Jump 3#3 0o12345#15 ∧
    decode 0b111111100110011001010011100101#30 = .enterB6Jump 3#3 0o12345#15 ∧
    decode 0b111111100111011001010011100101#30 = .enterB7Jump 3#3 0o12345#15 ∧
    decode 0b111111101000011001010011100101#30 = .unassigned7750 3#3 0o12345#15 := by decide

theorem test_decode_13 :
    decode 0b111111101001011001010011100101#30 = .logicalRightShiftQ 3#3 0o12345#15 ∧
    decode 0b111111101010011001010011100101#30 = .testAndSet 3#3 0o12345#15 ∧
    decode 0b111111101011011001010011100101#30 = .maskedAlphaEqual 3#3 0o12345#15 ∧
    decode 0b111111101100011001010011100101#30 = .executiveReturn 3#3 0o12345#15 ∧
    decode 0b111111101101011001010011100101#30 = .logicalRightShiftA 3#3 0o12345#15 ∧
    decode 0b111111101110011001010011100101#30 = .logicalRightShiftAq 3#3 0o12345#15 ∧
    decode 0b111111101111011001010011100101#30 = .maskedAlphaLess 3#3 0o12345#15 ∧
    decode 0b111111110000011001010011100101#30 = .unassigned7760 3#3 0o12345#15 := by decide

theorem test_decode_14 :
    decode 0b111111110001011001010011100101#30 = .enterIfrRir 3#3 0o12345#15 ∧
    decode 0b111111110010011001010011100101#30 = .loadPlr 3#3 0o12345#15 ∧
    decode 0b111111110011011001010011100101#30 = .unassigned7763 3#3 0o12345#15 ∧
    decode 0b111111110100011001010011100101#30 = .unassigned7764 3#3 0o12345#15 ∧
    decode 0b111111110101011001010011100101#30 = .storeIfr 3#3 0o12345#15 ∧
    decode 0b111111110110011001010011100101#30 = .enterRir 3#3 0o12345#15 ∧
    decode 0b111111110111011001010011100101#30 = .unassigned7767 3#3 0o12345#15 ∧
    decode 0b111111111000011001010011100101#30 = .initiateSyncInterrupt 3#3 0o12345#15 := by decide

theorem test_decode_15 :
    decode 0b111111111001011001010011100101#30 = .enterBWorker 3#3 0o12345#15 ∧
    decode 0b111111111010011001010011100101#30 = .storeChannelNumber 3#3 0o12345#15 ∧
    decode 0b111111111011011001010011100101#30 = .enterCsr 3#3 0o12345#15 ∧
    decode 0b111111111100011001010011100101#30 = .unassigned7774 3#3 0o12345#15 ∧
    decode 0b111111111101011001010011100101#30 = .storeBWorker 3#3 0o12345#15 ∧
    decode 0b111111111110011001010011100101#30 = .unassigned7776 3#3 0o12345#15 ∧
    decode 0b111111111111011001010011100101#30 = .unassigned7777 3#3 0o12345#15 := by decide

/-! ## Single steps, with the vector of 95_test_vectors.md or the rule each follows; words and addresses are octal -/

/-- A running machine in the executive state that fetches `w` at 002000, with storage `m`. -/
def fetching (w : Word) (m : List (Nat × Word)) : State :=
  { State.reset with
    pc := 0o2000
    run := true
    mem := (m.foldl (fun l c => Memory.set l c.1 c.2) ([] : Memory)).set 0o2000 w }

/-- The step answers a next state with the property. -/
def after (s : State) (f : State → Bool) : Bool :=
  match step s with
  | .next t => f t
  | .fault _ => false
  | .refused _ => false

/-- The step is refused for the reason. -/
def refusedFor (s : State) (r : Refusal) : Bool :=
  match step s with
  | .next _ => false
  | .fault _ => false
  | .refused x => x == r

/-- H5. -/
theorem test_rightShiftQ_H5 :
    after ((fetching 0o0100000073 []).setQ 0o4000000001) (fun t => t.q == 0o7777777777 && t.pc == 0o2001) = true := by decide

/-- H23. -/
theorem test_rightShiftQ_H23 :
    after ((fetching 0o0140000001 []).setQ 2) (fun t => t.q == 1 && t.pc == 0o2002) = true := by decide

/-- H2 on A, R202. -/
theorem test_rightShiftA_sign :
    after ((fetching 0o0200000035 []).setA 0o4000000001) (fun t => t.a == 0o7777777777 && t.q == 0) = true := by decide

/-- H8. -/
theorem test_rightShiftAq_H8 :
    after (((fetching 0o0300000072 []).setA 0o4000000000).setQ 1) (fun t => t.a == 0o7777777777 && t.q == 0o7777777776) = true := by decide

/-- H13. -/
theorem test_leftShiftQ_H13 :
    after ((fetching 0o0500000073 []).setQ 0o4000000001) (fun t => t.q == 0o6000000000) = true := by decide

/-- H12 on A, R205. -/
theorem test_leftShiftA_circular :
    after ((fetching 0o0600000037 []).setA 0o4000000001) (fun t => t.a == 3) = true := by decide

/-- H15. -/
theorem test_leftShiftAq_H15 :
    after (((fetching 0o0700000073 []).setA 0o1234567012).setQ 0o3456701234) (fun t => t.a == 0o0516273405 && t.q == 0o1627340516) = true := by decide

/-- H16. -/
theorem test_logicalRightShiftQ_H16 :
    after ((fetching 0o7751000035 []).setQ 0o4000000001) (fun t => t.q == 1) = true := by decide

/-- H18. -/
theorem test_logicalRightShiftA_H18 :
    after ((fetching 0o7755000001 []).setA 0o7777777777) (fun t => t.a == 0o3777777777) = true := by decide

/-- H19. -/
theorem test_logicalRightShiftAq_H19 :
    after (((fetching 0o7756000003 []).setA 0o7000000001).setQ 0o12) (fun t => t.a == 0o0700000000 && t.q == 0o1000000001) = true := by decide

/-- H30. -/
theorem test_scaleFactorShift_H30 :
    after ((fetching 0o7730000000 []).setA 0o7777777774) (fun t => t.a == 0o4777777777 && t.q == 0o33) = true := by decide

/-- H28. -/
theorem test_scaleFactorShift_H28 :
    after ((fetching 0o7730000000 []).setA 0o4000000000) (fun t => t.a == 0o4000000000 && t.q == 0) = true := by decide

/-- T1. -/
theorem test_enterQ_T1 :
    after (fetching 0o1004077776 []) (fun t => t.q == 0o7777777776) = true := by decide

/-- T4. -/
theorem test_enterA_T4 :
    after (fetching 0o1106000100 [(0o100, 0o4234567012)]) (fun t => t.a == 0o7777742345) = true := by decide

/-- T6. -/
theorem test_enterA_T6 :
    after ((fetching 0o1147000000 []).setA 0o7777777777) (fun t => t.a == 0o7777777777 && t.pc == 0o2001) = true := by decide

/-- T8. -/
theorem test_enterB_T8 :
    after (fetching 0o1243000100 [(0o100, 0o1234567012)]) (fun t => t.bExec.b4 == 0o167012) = true := by decide

/-- T9. -/
theorem test_enterB_T9 :
    after (fetching 0o1213000100 [(0o100, 0o1234567012)]) (fun t => t.bExec.b1 == 0o67012) = true := by decide

/-- T11. -/
theorem test_storeQ_T11 :
    after ((fetching 0o1400000000 []).setQ 5) (fun t => t.q == 0o7777777772) = true := by decide

/-- T12. -/
theorem test_storeQ_T12 :
    after ((fetching 0o1404000000 []).setQ 0o22) (fun t => t.a == 0o22 && t.q == 0o22) = true := by decide

/-- T14. -/
theorem test_storeA_T14 :
    after ((fetching 0o1502000200 [(0o200, 0o7070707070)]).setA 0o1111122222) (fun t => wordAt t 0o200 == 0o2222207070) = true := by decide

/-- T15. -/
theorem test_storeA_T15 :
    after ((fetching 0o1505000200 [(0o200, 0o7070707070)]).setA 0o1111122222) (fun t => wordAt t 0o200 == 0o7070755555) = true := by decide

/-- T18. -/
theorem test_storeB_T18 :
    after ((fetching 0o1615000300 [(0o300, 0o7070707070)]).setBExec { BSet.zero with b1 := 0o12 }) (fun t => wordAt t 0o300 == 0o7070777765) = true := by decide

/-- T20. -/
theorem test_storeB_T20 :
    after ((fetching 0o1647000300 []).setBExec { BSet.zero with b4 := 0o200000 }) (fun t => wordAt t 0o300 == 0o0000177777) = true := by decide

/-- T22. -/
theorem test_enterAq_T22 :
    after (fetching 0o7721000100 [(0o100, 0o1), (0o101, 0o2)]) (fun t => t.a == 1 && t.q == 2) = true := by decide

/-- T23. -/
theorem test_storeAq_T23 :
    after (((fetching 0o7725000100 []).setA 5).setQ 6) (fun t => wordAt t 0o100 == 5 && wordAt t 0o101 == 6) = true := by decide

/-- T24. -/
theorem test_loadPlr_T24 :
    after (fetching 0o7762000100 [(0o100, 0o7123474567)]) (fun t => t.ctl.plrUL == 0o1234 && t.ctl.plrLL == 0o0567) = true := by decide

/-- T25. -/
theorem test_enterRir_T25 :
    after (fetching 0o7766000100 [(0o100, 0o7777777777)]) (fun t => t.ctl.rirIV == 0o3777 && t.ctl.rirActive) = true := by decide

/-- T26. -/
theorem test_enterBWorker_T26 :
    after (fetching 0o7771000450 [(0o450, 0o7777777777), (0o451, 0o7777777777), (0o452, 0o7777777777), (0o453, 0o7777777777), (0o454, 0o7777777777), (0o455, 0o7777777777), (0o456, 0o7777777777)]) (fun t => t.bWork.b3 == 0o77777 && t.bWork.b7 == 0o377777 && t.bExec == BSet.zero) = true := by decide

/-- T27. -/
theorem test_storeBWorker_T27 :
    after ((fetching 0o7775000450 []).setBWork { BSet.zero with b1 := 0o12, b4 := 0o200000 }) (fun t => wordAt t 0o450 == 0o12 && wordAt t 0o453 == 0o200000) = true := by decide

/-- T28. -/
theorem test_charPackLower_T28 :
    after (fetching 0o7731000100 [(0o100, 0o1), (0o101, 0o2), (0o102, 0o7777777703), (0o103, 0o4), (0o104, 0o65)]) (fun t => t.a == 0o0102030465) = true := by decide

/-- R248. -/
theorem test_charPackUpper_order :
    after (fetching 0o7732000100 [(0o100, 0o100000), (0o101, 0o200000), (0o102, 0o7777700003), (0o103, 0o400000), (0o104, 0o6500000)]) (fun t => t.a == 0o0102770465) = true := by decide

/-- T29. -/
theorem test_charUnpackLower_T29 :
    after ((fetching 0o7735000100 [(0o100, 0o7070707070), (0o101, 0o7070707070), (0o102, 0o7070707070), (0o103, 0o7070707070), (0o104, 0o7070707070)]).setA 0o0102030405) (fun t => wordAt t 0o100 == 0o7070700001 && wordAt t 0o104 == 0o7070700005) = true := by decide

/-- R250. -/
theorem test_charUnpackUpper_order :
    after ((fetching 0o7736000100 [(0o100, 0o7070707070), (0o101, 0o7070707070), (0o102, 0o7070707070), (0o103, 0o7070707070), (0o104, 0o7070707070)]).setA 0o0102030405) (fun t => wordAt t 0o100 == 0o0000107070 && wordAt t 0o104 == 0o0000507070) = true := by decide

/-- P4 at 000402. -/
theorem test_enterIfrRir_P4 :
    after (fetching 0o7761000442 [(0o442, 0o210000000), (0o443, 0o20000)]) (fun t => t.ctl.ifr == 0o0210000000 && t.ctl.rirIV == 0o200 && t.ctl.rirActive && t.ctl.newIfr == .due && !t.ctl.ifrActive) = true := by decide

/-- P4 at 000500. -/
theorem test_storeIfr_P4 :
    after ((fetching 0o7765000460 []).setCtl { State.reset.ctl with ifr := 0o0210000033, ifrHold := true }) (fun t => wordAt t 0o460 == 0o0210000033) = true := by decide

/-- I14. -/
theorem test_addA_I14 :
    after ((fetching 0o2040077777 []).setA 0o7777700000) (fun t => t.a == 0 && t.pc == 0o2002) = true := by decide

/-- I16. -/
theorem test_subtractA_I16 :
    after (fetching 0o2170000001 []) (fun t => t.a == 0o7777777776 && t.pc == 0o2002) = true := by decide

/-- I17. -/
theorem test_replaceAPlusY_I17 :
    after ((fetching 0o2403000100 [(0o100, 0o3)]).setA 2) (fun t => t.a == 5 && wordAt t 0o100 == 5) = true := by decide

/-- I18. -/
theorem test_replaceAMinusY_I18 :
    after ((fetching 0o2501000100 [(0o100, 0o7070700003)]).setA 2) (fun t => t.a == 0o7777777776 && wordAt t 0o100 == 0o7070777776) = true := by decide

/-- I19. -/
theorem test_addQ_I19 :
    after ((fetching 0o2640000000 []).setQ 0o7777777777) (fun t => t.q == 0 && t.pc == 0o2002) = true := by decide

/-- R280, R163: j = 3 senses A. -/
theorem test_subtractQ_sign :
    after ((fetching 0o2730000001 []).setA 0o7777777777) (fun t => t.q == 0o7777777776 && t.pc == 0o2002) = true := by decide

/-- I5 in kind, R281. -/
theorem test_enterYPlusQ_sum :
    after ((fetching 0o3000000005 []).setQ 0o7777777774) (fun t => t.a == 2 && t.q == 0o7777777774) = true := by decide

/-- R282: Y - Q. -/
theorem test_enterYMinusQ_order :
    after ((fetching 0o3100000005 []).setQ 7) (fun t => t.a == 0o7777777775) = true := by decide

/-- R283, R156. -/
theorem test_storeAPlusQ_k7 :
    after (((fetching 0o3207000300 []).setA 2).setQ 3) (fun t => t.a == 5 && wordAt t 0o300 == 0o7777777772) = true := by decide

/-- R284. -/
theorem test_storeAMinusQ_k0 :
    after (((fetching 0o3300000000 []).setA 5).setQ 3) (fun t => t.a == 2 && t.q == 2) = true := by decide

/-- R285. -/
theorem test_replaceYPlusQ_half :
    after ((fetching 0o3401000100 [(0o100, 0o1234500003)]).setQ 4) (fun t => t.a == 7 && wordAt t 0o100 == 0o1234500007) = true := by decide

/-- R286: Y - Q. -/
theorem test_replaceYMinusQ_order :
    after ((fetching 0o3503000100 [(0o100, 0o3)]).setQ 4) (fun t => t.a == 0o7777777776 && wordAt t 0o100 == 0o7777777776) = true := by decide

/-- I21. -/
theorem test_replaceYPlus1_I21 :
    after (fetching 0o3601000100 [(0o100, 0o1234577777)]) (fun t => t.a == 0o100000 && wordAt t 0o100 == 0o1234500000) = true := by decide

/-- I22. -/
theorem test_replaceYMinus1_I22 :
    after (fetching 0o3703000100 []) (fun t => t.a == 0o7777777776 && wordAt t 0o100 == 0o7777777776) = true := by decide

/-- I23. -/
theorem test_addAq_I23 :
    after ((fetching 0o7722000100 [(0o101, 0o1)]).setQ 0o7777777777) (fun t => t.a == 1 && t.q == 0) = true := by decide

/-- I25. -/
theorem test_subtractAq_I25 :
    after (fetching 0o7726000100 [(0o101, 0o1)]) (fun t => t.a == 0o7777777777 && t.q == 0o7777777776) = true := by decide

/-- I26. -/
theorem test_complementAq_I26 :
    after ((fetching 0o7724000000 []).setQ 5) (fun t => t.a == 0o7777777777 && t.q == 0o7777777772) = true := by decide

/-- I50. -/
theorem test_multiply_I50 :
    after ((fetching 0o2230000002 []).setQ 0o5777777777) (fun t => t.a == 0o7777777777 && t.q == 0o3777777777 && t.pc == 0o2002) = true := by decide

/-- R268, k = 7. -/
theorem test_multiply_k7 :
    after (((fetching 0o2207000000 []).setA 0o7777777772).setQ 0o7777777772) (fun t => t.a == 0o7777777777 && t.q == 0o7777777746) = true := by decide

/-- I35. -/
theorem test_divide_I35 :
    after (((fetching 0o2300000002 []).setA 0o7777777777).setQ 0o7777777770) (fun t => t.q == 0o7777777774 && t.a == 0o7777777776) = true := by decide

/-- I31. -/
theorem test_divide_I31 :
    after ((fetching 0o2320000000 []).setQ 0o17) (fun t => t.q == 0o7777777777 && t.a == 0o17 && t.pc == 0o2002) = true := by decide

/-- F4, an exact result under FP_ROUND other. -/
theorem test_fpAdd_F4 :
    after ((((fetching 0o7701000100 [(0o100, 0o1775600000), (0o101, 0o0)]).setA 0o5774177777).setQ 0o7777777777).setCfg { Config.standard with fpRound := .other }) (fun t => t.a == 0o5774205777 && t.q == 0o7777777777) = true := by decide

/-- F14. -/
theorem test_fpAdd_F14 :
    after (((fetching 0o7701000100 [(0o100, 0o3777400000), (0o101, 0o0)]).setA 0o3777400000).setQ 0o0000000000) (fun t => t.fetch == .fixed 0o11#15) = true := by decide

/-- F13. -/
theorem test_fpSubtract_F13 :
    after (((fetching 0o7702000100 [(0o100, 0o1720400000), (0o101, 0o0)]).setA 0o2001400000).setQ 0o0000000000) (fun t => t.a == 0o2000777777 && t.q == 0o7777777777) = true := by decide

/-- F8, an exact result under FP_ROUND other. -/
theorem test_fpMultiply_F8 :
    after ((((fetching 0o7703000100 [(0o100, 0o1775600000), (0o101, 0o0)]).setA 0o5774177777).setQ 0o7777777777).setCfg { Config.standard with fpRound := .other }) (fun t => t.a == 0o5777337777 && t.q == 0o7777777777) = true := by decide

/-- F16. -/
theorem test_fpMultiply_F16 :
    after (((fetching 0o7703000100 [(0o100, 0o2000400000), (0o101, 0o0)]).setA 0o0000400000).setQ 0o0000000000) (fun t => t.fetch == .fixed 0o10#15) = true := by decide

/-- F10. -/
theorem test_fpDivide_F10 :
    after (((fetching 0o7705000100 [(0o100, 0o2002600000), (0o101, 0o0)]).setA 0o2001400000).setQ 0o0000000000) (fun t => t.a == 0o1777525252 && t.q == 0o5252525252) = true := by decide

/-- F18. -/
theorem test_fpDivide_F18 :
    after (((fetching 0o7705000100 []).setA 0o2003600000).setQ 0o0000000000) (fun t => t.fetch == .fixed 0o11#15) = true := by decide

/-- F23. -/
theorem test_fpPack_F23 :
    after (((fetching 0o7706000100 [(0o100, 0o2057)]).setA 0o7777777777).setQ 0o7777777772) (fun t => t.a == 0o5775277777 && t.q == 0o7777777777) = true := by decide

/-- F24. -/
theorem test_fpPack_F24 :
    after (((fetching 0o7706000100 [(0o100, 0o2000)]).setA 0o0001000000).setQ 0o0) (fun t => t.a == 0o2001400000 && t.q == 0o0) = true := by decide

/-- F28. -/
theorem test_fpUnpack_F28 :
    after (((fetching 0o7707000100 [(0o100, 0o7070707070)]).setA 0o2003600000).setQ 0o0000000000) (fun t => wordAt t 0o100 == 0o7070702003 && t.a == 0o0000600000 && t.q == 0o0) = true := by decide

/-- F29. -/
theorem test_fpUnpack_F29 :
    after (((fetching 0o7707000100 []).setA 0o5774177777).setQ 0o7777777777) (fun t => wordAt t 0o100 == 0o2003 && t.a == 0o7777177777 && t.q == 0o7777777777) = true := by decide

/-- S6. -/
theorem test_decimalAdd_S6 :
    after (((fetching 0o7711000100 [(0o100, 0o102030405), (0o101, 0o607101120)]).setA 0o1101020304).setQ 0o0506071011) (fun t => t.a == 0o0710101010 && t.q == 0o1010101111 && !t.ctl.ifr.getLsbD 24) = true := by decide

/-- D8. -/
theorem test_decimalAdd_D8 :
    after (((fetching 0o7711000100 [(0o100, 0o2020202020), (0o101, 0o2020242526)]).setA 0o6000204060).setQ 0o0020416263) (fun t => t.a == 0o6000204060 && t.q == 0o0020456771) = true := by decide

/-- S7. -/
theorem test_decimalSubtract_S7 :
    after (((fetching 0o7712000100 [(0o100, 0o1107030210), (0o101, 0o2110524)]).setA 0o0300060211).setQ 0o0110050201) (fun t => t.a == 0o0207110507 && t.q == 0o0201040705 && t.ctl.ifr.getLsbD 23) = true := by decide

/-- D10. -/
theorem test_decimalSubtract_D10 :
    after ((fetching 0o7712000100 [(0o101, 0o25)]).setQ 0o23) (fun t => t.a == 0o0 && t.q == 0o2 && t.ctl.ifr.getLsbD 23) = true := by decide

/-- D16. -/
theorem test_decimalAddCarry_D16 :
    after (((fetching 0o7715000100 [(0o101, 0o5)]).setQ 0o23).setCtl { State.reset.ctl with ifr := 0o0100000000 }) (fun t => t.q == 2 && t.ctl.ifr.getLsbD 24) = true := by decide

/-- D17. -/
theorem test_decimalSubtractBorrow_D17 :
    after (((fetching 0o7716000100 [(0o101, 0o23)]).setQ 0o25).setCtl { State.reset.ctl with ifr := 0o0040000000 }) (fun t => t.q == 0o21 && !t.ctl.ifr.getLsbD 23) = true := by decide

/-- D19. -/
theorem test_decimalComplement_D19 :
    after (((fetching 0o7714000001 []).setA 0o6000204060).setQ 0o0020416263) (fun t => t.a == 0o7111315171 && t.q == 0o1131506766) = true := by decide

/-- D20. -/
theorem test_decimalComplement_D20 :
    after (((fetching 0o7714000000 []).setA 0o6000204060).setQ 0o0020416263) (fun t => t.a == 0o7111315171 && t.q == 0o1131506767) = true := by decide

/-- D22. -/
theorem test_decimalConvertLower_D22 :
    after ((fetching 0o7733000100 [(0o100, 0o6), (0o101, 0o7), (0o102, 0o10), (0o103, 0o11), (0o104, 0o0)]).setQ 0o30071) (fun t => t.a == 1 && t.q == 0o1145401322) = true := by decide

/-- D24. -/
theorem test_decimalConvertUpper_D24 :
    after (fetching 0o7734000100 [(0o100, 0o100000), (0o101, 0o200000), (0o102, 0o300000), (0o103, 0o400000), (0o104, 0o500000)]) (fun t => t.a == 0 && t.q == 0o30071) = true := by decide

/-- D26. -/
theorem test_decimalTest_D26 :
    after (fetching 0o7710000020 []) (fun t => t.pc == 0o2002) = true := by decide

/-- D32. -/
theorem test_decimalTest_D32 :
    after ((fetching 0o7710000001 []).setCtl { State.reset.ctl with ifr := 0o0040000000 }) (fun t => t.pc == 0o2002) = true := by decide

/-- L1, L2. -/
theorem test_enterLp_L2 :
    after ((fetching 0o4033001000 [(0o1000, 0o2460136754)]).setQ 0o7012345670) (fun t => t.a == 0o2000104650 && t.pc == 0o2002) = true := by decide

/-- L5. -/
theorem test_addLp_L5 :
    after (((fetching 0o4100001234 []).setA 1).setQ 0o77) (fun t => t.a == 0o35) = true := by decide

/-- L6. -/
theorem test_subtractLp_L6 :
    after ((fetching 0o4200001234 []).setQ 0o77) (fun t => t.a == 0o7777777743) = true := by decide

/-- L7. -/
theorem test_replaceLp_L7 :
    after ((fetching 0o4403001000 [(0o1000, 0o2460136754)]).setQ 0o77777) (fun t => t.a == 0o36754 && wordAt t 0o1000 == 0o36754) = true := by decide

/-- L5 in kind, R355. -/
theorem test_replaceAPlusLp :
    after (((fetching 0o4503001000 [(0o1000, 0o1234)]).setA 1).setQ 0o77) (fun t => t.a == 0o35 && wordAt t 0o1000 == 0o35) = true := by decide

/-- L6 in kind, R356. -/
theorem test_replaceAMinusLp :
    after ((fetching 0o4603001000 [(0o1000, 0o1234)]).setQ 0o77) (fun t => t.a == 0o7777777743 && wordAt t 0o1000 == 0o7777777743) = true := by decide

/-- L8. -/
theorem test_storeLp_L8 :
    after (((fetching 0o4703001000 []).setA 0o7777700000).setQ 0o0123456701) (fun t => wordAt t 0o1000 == 0o0123400000 && t.a == 0o7777700000) = true := by decide

/-- L10. -/
theorem test_selectiveSet_L10 :
    after (((fetching 0o5003001000 [(0o1000, 0o2460136754)]).setA 0o7015345670).setQ 0o5207436163) (fun t => t.a == 0o7475377774) = true := by decide

/-- L11. -/
theorem test_selectiveComplement_L11 :
    after (((fetching 0o5103001000 [(0o1000, 0o2460136754)]).setA 0o7015345670).setQ 0o5207436163) (fun t => t.a == 0o5475273124) = true := by decide

/-- L12. -/
theorem test_selectiveClear_L12 :
    after (((fetching 0o5203001000 [(0o1000, 0o2460136754)]).setA 0o7015345670).setQ 0o5207436163) (fun t => t.a == 0o5015241020) = true := by decide

/-- L13. -/
theorem test_selectiveSubstitute_L13 :
    after (((fetching 0o5303001000 [(0o1000, 0o2460136754)]).setA 0o7015345670).setQ 0o5207436163) (fun t => t.a == 0o2010377750) = true := by decide

/-- L10 in kind. -/
theorem test_replaceSelectiveSet_L10 :
    after (((fetching 0o5403001000 [(0o1000, 0o2460136754)]).setA 0o7015345670).setQ 0o5207436163) (fun t => t.a == 0o7475377774 && wordAt t 0o1000 == 0o7475377774) = true := by decide

/-- L14. -/
theorem test_replaceSelectiveComplement_L14 :
    after (((fetching 0o5503001000 [(0o1000, 0o2460136754)]).setA 0o7015345670).setQ 0o5207436163) (fun t => t.a == 0o5475273124 && wordAt t 0o1000 == 0o5475273124) = true := by decide

/-- L12 in kind. -/
theorem test_replaceSelectiveClear_L12 :
    after (((fetching 0o5603001000 [(0o1000, 0o2460136754)]).setA 0o7015345670).setQ 0o5207436163) (fun t => t.a == 0o5015241020 && wordAt t 0o1000 == 0o5015241020) = true := by decide

/-- L13 in kind. -/
theorem test_replaceSelectiveSubstitute_L13 :
    after (((fetching 0o5703001000 [(0o1000, 0o2460136754)]).setA 0o7015345670).setQ 0o5207436163) (fun t => t.a == 0o2010377750 && wordAt t 0o1000 == 0o2010377750) = true := by decide

/-- K6: -0 below +0. -/
theorem test_compare_K6 :
    after ((fetching 0o0470000000 []).setA 0o7777777777) (fun t => t.pc == 0o2002) = true := by decide

/-- K4. -/
theorem test_compare_K4 :
    after (((fetching 0o0450000013 []).setA 5).setQ 0o12) (fun t => t.pc == 0o2002) = true := by decide

/-- K10. -/
theorem test_compareMasked_K10 :
    after (((fetching 0o4370001234 []).setA 0o33).setQ 0o77) (fun t => t.pc == 0o2002) = true := by decide

/-- K12. -/
theorem test_compareAqEqual_K12 :
    after (fetching 0o7723000100 [(0o100, 0o7777777777), (0o101, 0o7777777777)]) (fun t => t.pc == 0o2001) = true := by decide

/-- K13. -/
theorem test_compareAqLess_K13 :
    after (((fetching 0o7727000100 []).setA 0o7777777777).setQ 0o7777777777) (fun t => t.pc == 0o2002) = true := by decide

/-- K14. -/
theorem test_decimalCompareEqual_K14 :
    after (((fetching 0o7713000100 [(0o100, 0o0), (0o101, 0o10223)]).setA 0o6060606060).setQ 0o6060616223) (fun t => t.pc == 0o2002) = true := by decide

/-- K16, second case. -/
theorem test_decimalCompareLess_K16 :
    after (fetching 0o7717000100 [(0o100, 0o0), (0o101, 0o20)]) (fun t => t.pc == 0o2002) = true := by decide

/-- K18. -/
theorem test_maskedAlphaEqual_K18 :
    after (((fetching 0o7753000100 [(0o100, 0o7777771277)]).setA 0o1234561234).setQ 0o7700) (fun t => t.pc == 0o2002) = true := by decide

/-- K19. -/
theorem test_maskedAlphaLess_K19 :
    after (((fetching 0o7757000100 [(0o100, 0o3777777777)]).setA 0o4000000000).setQ 0o7777777777) (fun t => t.pc == 0o2001) = true := by decide

/-- J3. -/
theorem test_jumpArithmetic_J3 :
    after ((fetching 0o6010001000 []).setLockout ⟨true, true, 5⟩) (fun t => t.pc == 0o1000 && t.lockout == ⟨false, false, 0⟩) = true := by decide

/-- J4. -/
theorem test_jumpArithmetic_J4 :
    after ((fetching 0o6071000100 [(0o100, 0o7777701000)]).setA 0o4000000000) (fun t => t.pc == 0o1000) = true := by decide

/-- J7. -/
theorem test_jumpManual_J7 :
    after ((fetching 0o6120001000 []).setPanel { State.reset.panel with key2 := true }) (fun t => t.pc == 0o1000 && t.run) = true := by decide

/-- J8. -/
theorem test_jumpManual_J8 :
    after (fetching 0o6140001000 []) (fun t => t.pc == 0o1000 && !t.run) = true := by decide

/-- J11. -/
theorem test_returnJumpArithmetic_J11 :
    after (fetching 0o6410003000 [(0o3000, 0o7070707070)]) (fun t => wordAt t 0o3000 == 0o7070702001 && t.pc == 0o3001 && t.lockout == ⟨true, true, 0⟩) = true := by decide

/-- J15. -/
theorem test_returnJumpManual_J15 :
    after (fetching 0o6540003000 []) (fun t => wordAt t 0o3000 == 0o2001 && t.pc == 0o3001 && !t.run) = true := by decide

/-- J17, first step. -/
theorem test_executeRemote_J17 :
    after (fetching 0o7737002100 [(0o2100, 0o1110000005)]) (fun t => t.fetch == .remote 0o2100 && t.pc == 0o2001) = true := by decide

/-- J17, second step. -/
theorem test_executeRemote_target_J17 :
    after (((fetching 0o0 [(0o2100, 0o1110000005)]).setFetch (.remote 0o2100)).setPc 0o1001) (fun t => t.a == 5 && t.pc == 0o1002) = true := by decide

/-- J20. -/
theorem test_enterB0Jump_J20 :
    after (fetching 0o7740001000 []) (fun t => t.pc == 0o1000 && t.bExec == BSet.zero) = true := by decide

/-- J22 in kind: target from the original register. -/
theorem test_enterB1Jump :
    after ((fetching 0o7741101000 []).setBExec { BSet.zero with b1 := 0o100 }) (fun t => t.pc == 0o1100 && t.bExec.b1 == 0o2001) = true := by decide

/-- J22 in kind: target from the original register. -/
theorem test_enterB2Jump :
    after ((fetching 0o7742201000 []).setBExec { BSet.zero with b2 := 0o100 }) (fun t => t.pc == 0o1100 && t.bExec.b2 == 0o2001) = true := by decide

/-- J22 in kind: target from the original register. -/
theorem test_enterB3Jump :
    after ((fetching 0o7743301000 []).setBExec { BSet.zero with b3 := 0o100 }) (fun t => t.pc == 0o1100 && t.bExec.b3 == 0o2001) = true := by decide

/-- J22. -/
theorem test_enterB4Jump :
    after ((fetching 0o7744401000 []).setBExec { BSet.zero with b4 := 0o100 }) (fun t => t.pc == 0o1100 && t.bExec.b4 == 0o2001) = true := by decide

/-- J22 in kind: target from the original register. -/
theorem test_enterB5Jump :
    after ((fetching 0o7745501000 []).setBExec { BSet.zero with b5 := 0o100 }) (fun t => t.pc == 0o1100 && t.bExec.b5 == 0o2001) = true := by decide

/-- J22 in kind: target from the original register. -/
theorem test_enterB6Jump :
    after ((fetching 0o7746601000 []).setBExec { BSet.zero with b6 := 0o100 }) (fun t => t.pc == 0o1100 && t.bExec.b6 == 0o2001) = true := by decide

/-- J22 in kind: target from the original register. -/
theorem test_enterB7Jump :
    after ((fetching 0o7747701000 []).setBExec { BSet.zero with b7 := 0o100 }) (fun t => t.pc == 0o1100 && t.bExec.b7 == 0o2001) = true := by decide

/-- R32: 0 where P is below RIR. -/
theorem test_enterB1Jump_J24 :
    after ((fetching 0o7741000100 []).setCtl { State.reset.ctl with rirIV := 0o3777 }) (fun t => t.pc == 0o100 && t.bExec.b1 == 0) = true := by decide

/-- Q1, first step. -/
theorem test_repeat_Q1 :
    after (fetching 0o7010000003 []) (fun t => t.bExec.b7 == 3 && t.rep.active && t.rep.j == 1) = true := by decide

/-- Q2. -/
theorem test_repeat_Q2 :
    after ((fetching 0o7000000000 []).setBExec { BSet.zero with b7 := 0o377777 }) (fun t => t.bExec.b7 == 0 && t.pc == 0o2002) = true := by decide

/-- Q3, first execution. -/
theorem test_repeated_Q3 :
    after (((fetching 0o2003001002 [(0o1000, 0o1), (0o1001, 0o2), (0o1002, 0o3)]).setBExec { BSet.zero with b7 := 3 }).setRep ⟨true, 2, 0, true, none⟩) (fun t => t.a == 3 && t.bExec.b7 == 2 && t.rep.ybar == 0o1001 && t.rep.active && t.pc == 0o2001) = true := by decide

/-- Q8. -/
theorem test_repeated_Q8 :
    after (((fetching 0o1210000005 []).setBExec { BSet.zero with b7 := 3 }).setRep ⟨true, 1, 0, true, none⟩) (fun t => t.bExec.b1 == 5 && t.bExec.b7 == 3 && !t.rep.active && t.pc == 0o2001) = true := by decide

/-- Q12. -/
theorem test_bSkip_Q12 :
    after ((fetching 0o7120000005 []).setBExec { BSet.zero with b2 := 5 }) (fun t => t.bExec.b2 == 0 && t.pc == 0o2002) = true := by decide

/-- Q15. -/
theorem test_bSkip_Q15 :
    after ((fetching 0o7144077776 []).setBExec { BSet.zero with b4 := 0o177776 }) (fun t => t.bExec.b4 == 0 && t.pc == 0o2002) = true := by decide

/-- Q17. -/
theorem test_bJump_Q17 :
    after ((fetching 0o7230001000 []).setBExec { BSet.zero with b3 := 2 }) (fun t => t.bExec.b3 == 1 && t.pc == 0o1000) = true := by decide

/-- Q20. -/
theorem test_testAndSet_Q20 :
    after (fetching 0o7752000100 [(0o100, 0o1234500000)]) (fun t => wordAt t 0o100 == 0o1234577777 && t.fetch == .program) = true := by decide

/-- Q21. -/
theorem test_testAndSet_Q21 :
    after (fetching 0o7752000100 [(0o100, 0o40000)]) (fun t => wordAt t 0o100 == 0o40000 && t.fetch == .fixed 0o30#15 && t.pc == 0o2001 && t.ctl.ifr == 0o100) = true := by decide

/-- Q22. -/
theorem test_executiveReturn_Q22 :
    after (fetching 0o7754000033 []) (fun t => t.fetch == .fixed 7#15 && t.ctl.ifr == 0o33 && t.lockout.locked) = true := by decide

/-- S12. -/
theorem test_sendExternalFunction_S12 :
    after ((fetching 0o1303012345 [(0o12345, 0o300007)]).setSel { State.reset.sel with csr := 0o14 }) (fun t => t.outputs == [.externalFunction 12 0o0000300007]) = true := by decide

/-- O19. -/
theorem test_storeChannel_O19 :
    after (((fetching 0o1703000300 []).setSel { State.reset.sel with iasr := 6, useIasr := true }).setChans (State.reset.chans.set 6 { Channel.idle with inLines := 0o40 })) (fun t => wordAt t 0o300 == 0o40 && t.outputs == [.inputAck 6]) = true := by decide

/-- O18. -/
theorem test_jumpActiveInput_O18 :
    after (((fetching 0o6200001000 []).setSel { State.reset.sel with csr := 6 }).setChans (State.reset.chans.set 6 { Channel.idle with inActive := true })) (fun t => t.pc == 0o1000) = true := by decide

/-- R464: the output flag. -/
theorem test_jumpActiveOutput_idle :
    after (((fetching 0o6300001000 []).setSel { State.reset.sel with csr := 6 }).setChans (State.reset.chans.set 6 { Channel.idle with inActive := true })) (fun t => t.pc == 0o2001) = true := by decide

/-- O17. -/
theorem test_terminateInput_O17 :
    after (((fetching 0o6600000000 []).setSel { State.reset.sel with csr := 6 }).setChans (State.reset.chans.set 6 { Channel.idle with inActive := true, inMon := true, outActive := true })) (fun t => t.chans[6] == { Channel.idle with outActive := true }) = true := by decide

/-- R466. -/
theorem test_terminateOutput_flags :
    after (((fetching 0o6700000000 []).setSel { State.reset.sel with csr := 6 }).setChans (State.reset.chans.set 6 { Channel.idle with inActive := true, outActive := true, efActive := true })) (fun t => t.chans[6] == { Channel.idle with inActive := true }) = true := by decide

/-- O9. -/
theorem test_activateInput_O9 :
    after ((fetching 0o7303001022 [(0o1022, 0o377020000)]).setSel { State.reset.sel with csr := 6 }) (fun t => wordAt t 0o106 == 0o0377020000 && (t.chans[6]).inActive && !(t.chans[6]).inMon) = true := by decide

/-- O11. -/
theorem test_activateInput_O11 :
    after ((fetching 0o7301001022 [(0o1022, 0o1111122222), (0o106, 0o7070707070)]).setSel { State.reset.sel with csr := 6 }) (fun t => wordAt t 0o106 == 0o7070722222) = true := by decide

/-- O10. -/
theorem test_activateInputMonitor_O10 :
    after ((fetching 0o7500000000 []).setSel { State.reset.sel with csr := 6 }) (fun t => wordAt t 0o106 == 0 && (t.chans[6]).inActive && (t.chans[6]).inMon) = true := by decide

/-- S12, alternative. -/
theorem test_activateOutput_S12 :
    after ((fetching 0o7407034567 [(0o34567, 0o1012345)]).setSel { State.reset.sel with csr := 0o14 }) (fun t => wordAt t 0o54 == 0o0001012345 && (t.chans[12]).efActive && !(t.chans[12]).outMon) = true := by decide

/-- S13. -/
theorem test_activateOutputMonitor_S13 :
    after ((fetching 0o7603001020 [(0o1020, 0o7001030)]).setSel { State.reset.sel with csr := 5 }) (fun t => wordAt t 0o45 == 0o0007001030 && (t.chans[5]).outActive && (t.chans[5]).outMon && !(t.chans[5]).efActive) = true := by decide

/-- O20. -/
theorem test_initiateSyncInterrupt_O20 :
    after (fetching 0o7770002002 []) (fun t => t.outputs == [.sync1, .sync0]) = true := by decide

/-- O7. -/
theorem test_storeChannelNumber_O7 :
    after ((fetching 0o7772000200 []).setSel { State.reset.sel with iasr := 6, useIasr := true }) (fun t => wordAt t 0o200 == 6) = true := by decide

/-- O8. -/
theorem test_storeChannelNumber_O8 :
    after (fetching 0o7772000200 []) (fun t => wordAt t 0o200 == 0o37) = true := by decide

/-- O6. -/
theorem test_enterCsr_O6 :
    after (fetching 0o7773000100 [(0o100, 0o7777777754)]) (fun t => t.sel.csr == 0o14) = true := by decide

/-- X1. -/
theorem test_illegal00_X1 :
    after (fetching 0o0 []) (fun t => t.fetch == .fixed 0#15 && t.pc == 0o2001 && t.lockout.locked && t.ctl.ifrHold) = true := by decide

/-- X1. -/
theorem test_illegal7700_X1 :
    after (fetching 0o7700000000 []) (fun t => t.fetch == .fixed 0#15) = true := by decide

/-- X2. -/
theorem test_unassigned7704 :
    after (fetching 0o7704000000 []) (fun t => t.pc == 0o2001 && t.fetch == .program) = true := by decide

/-- X2 in kind, R171. -/
theorem test_unassigned7720 :
    after (fetching 0o7720000000 []) (fun t => t.pc == 0o2001 && t.fetch == .program) = true := by decide

/-- X2 in kind, R171. -/
theorem test_unassigned7750 :
    after (fetching 0o7750000000 []) (fun t => t.pc == 0o2001 && t.fetch == .program) = true := by decide

/-- X2 in kind, R171. -/
theorem test_unassigned7760 :
    after (fetching 0o7760000000 []) (fun t => t.pc == 0o2001 && t.fetch == .program) = true := by decide

/-- X2 in kind, R171. -/
theorem test_unassigned7763 :
    after (fetching 0o7763000000 []) (fun t => t.pc == 0o2001 && t.fetch == .program) = true := by decide

/-- X2 in kind, R171. -/
theorem test_unassigned7764 :
    after (fetching 0o7764000000 []) (fun t => t.pc == 0o2001 && t.fetch == .program) = true := by decide

/-- X2 in kind, R171. -/
theorem test_unassigned7767 :
    after (fetching 0o7767000000 []) (fun t => t.pc == 0o2001 && t.fetch == .program) = true := by decide

/-- X2 in kind, R171. -/
theorem test_unassigned7774 :
    after (fetching 0o7774000000 []) (fun t => t.pc == 0o2001 && t.fetch == .program) = true := by decide

/-- X2 in kind, R171. -/
theorem test_unassigned7776 :
    after (fetching 0o7776000000 []) (fun t => t.pc == 0o2001 && t.fetch == .program) = true := by decide

/-- X2 in kind, R171. -/
theorem test_unassigned7777 :
    after (fetching 0o7777000000 []) (fun t => t.pc == 0o2001 && t.fetch == .program) = true := by decide

/-- X9. -/
theorem test_unassigned7764_X9 :
    after ((fetching 0o7764000000 []).setCtl { State.reset.ctl with ifr := 0o0010000000, ifrActive := true, plrUL := 0o3777 }) (fun t => t.fetch == .fixed 0#15) = true := by decide

/-- X7. -/
theorem test_enterCsr_X7 :
    after ((fetching 0o7773000100 [(0o100, 0o5)]).setCtl { State.reset.ctl with ifr := 0o0010000000, ifrActive := true, plrUL := 0o3777 }) (fun t => t.fetch == .fixed 0#15 && t.sel.csr == 0 && t.ctl.ifr == 0o0010000000) = true := by decide

/-- X5, the first of the order. -/
theorem test_interrupt_X5 :
    after ((fetching 0o1100000000 []).setPending [.sync0, .dayClock, .externalIsi 3, .externalIsi 12, .inputMonitorEsi 0]) (fun t => t.fetch == .fixed 0o21#15 && t.pending == [.sync0, .dayClock, .externalIsi 3, .externalIsi 12] && t.pc == 0o2000) = true := by decide

/-- X6, the first (channels in decimal). -/
theorem test_interrupt_X6 :
    after ((fetching 0o1100000000 []).setPending [.externalIsi 20, .externalIsi 7, .externalIsi 10]) (fun t => t.pending == [.externalIsi 20, .externalIsi 7] && t.sel.iasr == 0o12) = true := by decide

/-- X11. -/
theorem test_fixedLocation_X11 :
    after (((((fetching 0o0 [(0o7, 0o7744000400)]).setFetch (.fixed 7#15)).setEntryOpen true).setPc 0o21235).setCtl { State.reset.ctl with rirIV := 0o200, ifrHold := true }) (fun t => t.bExec.b4 == 0o1235 && t.pc == 0o400 && t.ctl.rirIV == 0) = true := by decide

/-- P4 at 000403. -/
theorem test_delayedActivation_P4 :
    after ((fetching 0o6010100000 []).setCtl { State.reset.ctl with ifr := 0o0210000000, newIfr := .due, rirIV := 0o200, rirActive := true, plrUL := 0o201, plrLL := 0o200 }) (fun t => t.pc == 0o20000 && t.ctl.ifrActive && t.ctl.newIfr == .settled && t.ctl.ifr == 0o0210002001) = true := by decide

/-- O13. -/
theorem test_isiInput_O13 :
    after (((fetching 0o0 [(0o106, 0o1020376)]).setChans (State.reset.chans.set 6 { Channel.idle with inActive := true, inMon := true, idr := true, inLines := 5 })).setInputs [.service]) (fun t => wordAt t 0o20376 == 5 && wordAt t 0o106 == 0o20377 && t.pending == [.inputMonitorIsi 6] && !(t.chans[6]).inActive) = true := by decide

/-- O14, the first ODR. -/
theorem test_isiOutput_O14 :
    after (((fetching 0o0 [(0o45, 0o1030000), (0o30000, 0o1234567012)]).setChans (State.reset.chans.set 5 { Channel.idle with outActive := true, outMon := true, odr := true })).setInputs [.service]) (fun t => t.outputs == [.outputAck 5 0o1234567012] && wordAt t 0o45 == 0o30001 && (t.chans[5]).outDone && (t.chans[5]).outActive) = true := by decide

/-- O15 (channel 16 octal). -/
theorem test_esiInput_O15 :
    after ((((fetching 0o0 [(0o542, 0o2031000), (0o31000, 0o7070707070)]).setCfg { Config.standard with esiWired := Vector.replicate 24 true }).setChans (State.reset.chans.set 14 { Channel.idle with inActive := true, idr := true, inLines := 0o0000700542 })).setInputs [.service]) (fun t => wordAt t 0o542 == 0o0001031001 && wordAt t 0o31000 == 0o0000707070) = true := by decide

/-- O16. -/
theorem test_esiOutput_O16 :
    after ((((fetching 0o0 [(0o542, 0o1031000), (0o56, 0o7070707070)]).setCfg { Config.standard with esiWired := Vector.replicate 24 true }).setChans (State.reset.chans.set 14 { Channel.idle with outActive := true, odr := true, inLines := 0o0000000542 })).setInputs [.service]) (fun t => wordAt t 0o56 == 0o7070700542 && wordAt t 0o542 == 0o31001 && !(t.chans[14]).outActive) = true := by decide

/-- X13. -/
theorem test_rtc_X13 :
    after (((fetching 0o0 [(0o17, 0o777777)]).setClk ⟨none, 1⟩).setInputs [.service]) (fun t => wordAt t 0o17 == 0 && t.pending == [.realTimeClock]) = true := by decide

/-- R590, R125, R133: another CPU writes a half-word. -/
theorem test_otherStore_R590 :
    after ((((fetching 0o7000000000 [(0o100, 0o300005)]).setOverlap [(64#17, 7#30), (65#17, 8#30)]).setParity [128]).setInputs [.otherStore 64#17 .lower 9#30]) (fun t => wordAt t 0o100 == 0o0000300011 && t.parity == [] && t.overlap == [(65#17, 8#30)]) = true := by decide

/-- R132: the lower half becomes ones where bit 14 is 0. -/
theorem test_otherTestAndSet_R132 :
    after ((fetching 0o7000000000 [(0o100, 0o5), (0o101, 0o40005)]).setInputs [.otherTestAndSet 64#17]) (fun t => wordAt t 0o100 == 0o77777 && t.pending == []) = true := by decide

/-- R132: nothing is stored where bit 14 is 1. -/
theorem test_otherTestAndSet_R132_set :
    after ((fetching 0o7000000000 [(0o101, 0o40005)]).setInputs [.otherTestAndSet 65#17]) (fun t => wordAt t 0o101 == 0o40005 && t.pending == []) = true := by decide

/-- R6: a line that is not wired carries no request. -/
theorem test_syncLineNotWired_R6 :
    after (((fetching 0o7000000000 []).setCfg { Config.standard with syncIn := #v[false, true] }).setInputs [.syncLine 0]) (fun t => t.pending == []) = true := by decide

/-- R565. -/
theorem test_syncLineWired_R6 :
    after (((fetching 0o7000000000 []).setCfg { Config.standard with syncIn := #v[false, true] }).setInputs [.syncLine 1]) (fun t => t.pending == [.sync1]) = true := by decide

/-- R6, R469: only a wired line carries a pulse. -/
theorem test_initiateSyncInterrupt_R6 :
    after ((fetching 0o7770002002 []).setCfg { Config.standard with syncOut := #v[true, false] }) (fun t => t.outputs == [.sync0]) = true := by decide

/-- R441 with m = 15: bits 16 and 15 of f1 are not taken. -/
theorem test_resumedYbar_R441_narrow :
    after ((fetching 0o6100002345 [(0o2345, 0o2003001000)]).setCtl { State.reset.ctl with ifr := 0o0400301002, newIfr := .due, reinit := true }) (fun t => t.rep.active && t.rep.ybar == 0o1002) = true := by decide

/-- R441 with m = 17: b = 4 and bit 26 of the IFR. -/
theorem test_resumedYbar_R441_wide :
    after ((fetching 0o6100002345 [(0o2345, 0o2003401000)]).setCtl { State.reset.ctl with ifr := 0o0400301002, newIfr := .due, reinit := true }) (fun t => t.rep.active && t.rep.ybar == 0o301002) = true := by decide

/-- R557: a wrong lower half of the operand word of an entry, bank 0. -/
theorem test_memoryParity_R557 :
    after ((((fetching 0o1103000100 [(0o100, 0o5)]).setParity [128]).setFetch (.fixed 0o2000#15)).setEntryOpen true) (fun t => t.fetch == .fixed 3#15 && t.a == 0 && t.pc == 0o2000) = true := by decide

/-- R489: a wrong BCW of an ISI input buffer. -/
theorem test_bcwParity_R489 :
    after ((((fetching 0o0 [(0o106, 0o2020000)]).setParity [140]).setChans (State.reset.chans.set 6 { Channel.idle with inActive := true, idr := true })).setInputs [.service]) (fun t => t.pending == [.bcwParity 6] && !(t.chans[6]).inActive && wordAt t 0o106 == 0) = true := by decide

/-- R490: a wrong upper half of the word sent. -/
theorem test_dataParity_R490 :
    after ((((fetching 0o0 [(0o45, 0o2030000)]).setParity [24577]).setChans (State.reset.chans.set 5 { Channel.idle with outActive := true, odr := true })).setInputs [.service]) (fun t => t.pending == [.ioDataParity 5] && t.outputs == [.outputAck 5 0]) = true := by decide

/-- R440 case (1): f1 stays as it was read from memory. -/
theorem test_reinitiatedParity_R440 :
    after ((((fetching 0o1100000000 []).setParity [2048]).setCtl { State.reset.ctl with ifr := 0o4000001234, ifrActive := true, plrUL := 0o3777 }).setRep { active := true, j := 0, ybar := 5, first := false, word := none }) (fun t => t.ctl.ifr.extractLsb' 0 17 == 0o1234#17 && t.pc == 0o2000 && !t.rep.active) = true := by decide

/-- H21. -/
theorem test_shiftCount_H21 : refusedFor (fetching 0o0100000074 []) .shiftCountAbove59 = true := by decide

/-- L16. -/
theorem test_selectiveSet_L16 : refusedFor (fetching 0o5007000000 []) .forbiddenDesignator = true := by decide

/-- O22. -/
theorem test_sendExternalFunction_O22 : refusedFor (fetching 0o1307012345 []) .forbiddenDesignator = true := by decide

/-! ## Witnesses: for each obligation with hypotheses, states and operands that meet them -/

/-- A worker program with read and write protection: limits 020000 to 020177, RIR 020000, P at 020000, storage `m`. -/
def limited (m : List (Nat × Word)) : State :=
  { fetching 0 m with
    pc := 0o20000
    ctl := { State.reset.ctl with ifr := 0o0010000000, ifrActive := true, plrUL := 0o201, plrLL := 0o200, rirIV := 0o200, rirActive := true } }

/-- The state directly after a 7761 that loads worker B registers, 17 bits, and no protection. -/
def afterLoad : State :=
  { fetching 0 [] with
    ctl := { State.reset.ctl with ifr := 0o0600000000, newIfr := .due, rirIV := 0o200, rirActive := true } }

/-- A channel number selected, the channel in the state given, outside guard mode. -/
def onSix (c : Channel) : State :=
  (((fetching 0 [(0o1022, 0o0377020000)]).setSel { State.reset.sel with csr := 6 }).setChans (State.reset.chans.set 6 c))

/-- The operand words at both limits, and the forms without storage reference. -/
theorem witness_TransferAndAddComplete : operandReadable 3#3 0#3 0o177#15 (limited []) = true ∧
    operandReadable 6#3 0#3 0#15 (limited []) = true ∧ operandReadable 0#3 7#3 0o77777#15 (limited []) = true ∧
    operandReadable 7#3 0#3 0o200#15 (limited []) = true := by decide

theorem witness_LogicalReadClassCompletes : (6#3 != 7#3) = true ∧ operandReadable 6#3 0#3 0o177#15 (limited []) = true ∧
    operandReadable 7#3 0#3 0#15 (limited []) = true := by decide

theorem witness_CompareCompletes : operandReadable 3#3 0#3 0o177#15 (limited [(0o20177, 0o7777777777)]) = true ∧
    operandReadable 4#3 0#3 0o77777#15 (limited []) = true := by decide

theorem witness_MultiplyCompletes : operandReadable 7#3 0#3 0#15 ((limited []).setQ 0o4000000000) = true ∧
    operandReadable 3#3 0#3 0o177#15 (limited []) = true := by decide

/-- The quotients 2^29 - 1 and 2^29, and a zero dividend with a negative divisor (vectors I39, I54, I59). -/
theorem witness_DivideCompletes :
    (let s := (fetching 0 [(0o100, 1)]).setQ 0o3777777777
     operandReadable 3#3 0#3 0o100#15 s = true ∧ operandValue 3#3 0#3 0o100#15 s = 1 ∧
       (magnitude (s.a ++ s.q : BitVec (30 + 30))).toNat = 2 ^ 29 - 1) ∧
    (let s := (fetching 0 [(0o100, 1)]).setQ 0o4000000000
     operandReadable 3#3 0#3 0o100#15 s = true ∧ operandValue 3#3 0#3 0o100#15 s = 1 ∧
       (magnitude (s.a ++ s.q : BitVec (30 + 30))).toNat = 2 ^ 29) ∧
    (let s := fetching 0 [(0o100, 0o7777777772)]
     operandReadable 3#3 0#3 0o100#15 s = true ∧ operandValue 3#3 0#3 0o100#15 s = 0o7777777772 ∧ s.a.getLsbD 29 = false ∧
       (magnitude (s.a ++ s.q : BitVec (30 + 30))).toNat = 0) := by decide

theorem witness_DivideByZeroCompletes :
    (operandReadable 0#3 0#3 0#15 (limited []) = true ∧ operandValue 0#3 0#3 0#15 (limited []) = 0) ∧
    (operandReadable 4#3 0#3 0o77777#15 (limited []) = true ∧ operandValue 4#3 0#3 0o77777#15 (limited []) = 0o7777777777) := by decide

theorem witness_NormalShiftsComplete : operandReadable 0#3 0#3 0o7773#15 (limited []) = true ∧
    (operandValue 0#3 0#3 0o7773#15 (limited [])).toNat % 64 = 59 := by decide

theorem witness_UnsignedShiftsComplete : (effective 0#3 0o73#15 (limited [])).toNat % 64 = 59 := by decide

/-- A word at the upper limit; and under Repeat with j = 5 a displaced destination. -/
theorem witness_ReplaceClassCompletes :
    (replaceK 1#3 = true ∧ canRead (opAddr 0#3 0o177#15 (limited [])) 0 (limited []) = true ∧
      canWrite (replaceDest 0#3 0o177#15 (limited [])) 0 (partOf 1#3) (noteStorage 0#3 0o177#15 (limited [])) = true) ∧
    (let s := ((fetching 0 []).setRep ⟨true, 5#3, 0o2000#17, false, none⟩).setBExec { BSet.zero with b6 := 0o1000 }
     replaceK 3#3 = true ∧ canRead (opAddr 0#3 0o2000#15 s) 0 s = true ∧
       (replaceDest 0#3 0o2000#15 s).base = 0o3000 ∧
       canWrite (replaceDest 0#3 0o2000#15 s) 0 (partOf 3#3) (noteStorage 0#3 0o2000#15 s) = true) := by decide

theorem witness_StoreClassCompletes : storageK 7#3 = true ∧ canWrite (opAddr 0#3 0o177#15 (limited [])) 0 (partOf 7#3) (limited []) = true ∧
    storageK 6#3 = true ∧ (6#3 != 7#3) = true ∧ canWrite (opAddr 0#3 0#15 (limited [])) 0 (partOf 6#3) (limited []) = true ∧
    storageK 0#3 = false ∧ storageK 4#3 = false := by decide

theorem witness_StoreIndexRegisterCompletes : ∀ k ∈ [1#3, 2#3, 3#3, 5#3, 6#3, 7#3], storageK k = true ∧
    canWrite (opAddr 0#3 0o177#15 (limited [])) 0 (partOf k) (limited []) = true := by decide

theorem witness_EnterIndexRegisterCompletes : (4#3 ≠ 0#3 ∧ operandReadable 3#3 0#3 0o177#15 (limited []) = true) ∧
    (1#3 ≠ 0#3 ∧ operandReadable 3#3 0#3 0o100#15 afterLoad = true ∧ afterLoad.ctl.newIfr = .due) := by decide

/-- The second word at the upper limit. -/
theorem witness_DoubleWordTransfersComplete : doubleReadable 0#3 0o176#15 (limited []) = true := by decide

theorem witness_DoubleAndMaskedComparesComplete : doubleReadable 0#3 0o176#15 (limited []) = true ∧
    decValid (doubleValue 0#3 0o176#15 (limited [(0o20176, 0o1111111111)])) = true ∧
    canRead (opAddr 0#3 0o177#15 (limited [])) 0 (limited []) = true := by decide

/-- The last of seven, five and two words at the upper limit. -/
theorem witness_MultiWordInstructionsComplete : wordsWritable 0#3 0o171#15 7 .whole (limited []) = true ∧
    wordsWritable 0#3 0o176#15 2 .whole (limited []) = true ∧ wordsWritable 0#3 0o173#15 5 .lower (limited []) = true ∧
    wordsWritable 0#3 0#15 5 .upper (limited []) = true ∧ wordsReadable 0#3 0o171#15 7 (limited []) = true ∧
    wordsReadable 0#3 0#15 5 (limited []) = true := by decide

/-- The largest result, 2^34 - 1 = 171798 * 100000 + 69183. -/
theorem witness_DecimalConvertCompletes :
    let s := (limited [(0o20000, 6), (0o20001, 9), (0o20002, 1), (0o20003, 8), (0o20004, 3)]).setQ 171798
    wordsReadable 0#3 0#15 5 s = true ∧ (s.a ++ s.q : BitVec (30 + 30)).toNat * 100000 + 69183 = 2 ^ 34 - 1 ∧
      (∀ n ∈ List.range 5, ((operandWord 0#3 0#15 n s).extractLsb' 0 4).toNat ≤ 9 ∧ (operandWord 0#3 0#15 n s).extractLsb' 6 9 = 0) ∧
      (operandWord 0#3 0#15 0 s).toNat = 6 := by decide

/-- Like signs with sums of 10^10 - 1 and 10^10; unlike signs with an intermediate sum of exactly 10^10 and one below it, by tens and by
nines complement; and a digit above 9. -/
theorem witness_DecimalAdditionsComplete :
    let ready := fun (s : State) (a b : Nat) (like : Bool) =>
      let x : DWord := s.a ++ s.q
      let m := doubleValue 0#3 0#15 s
      doubleReadable 0#3 0#15 s = true ∧ decValid x = true ∧ decValid m = true ∧ decMag x = a ∧ decMag m = b ∧
        (x.getLsbD 4 == m.getLsbD 4) = like
    ready (((limited [(0o20001, 0o21)]).setA 0o1111111111).setQ 0o1111111130) 9999999998 1 true ∧
    ready (((limited [(0o20001, 0o21)]).setA 0o1111111111).setQ 0o1111111131) 9999999999 1 true ∧
    ready ((limited [(0o20001, 0o3)]).setQ 0o22) 2 3 false ∧ 10 ^ 10 - 1 - 2 + 3 = 10 ^ 10 ∧
    ready ((limited [(0o20001, 0o3)]).setQ 0o23) 3 3 false ∧ 10 ^ 10 - 3 + 3 = 10 ^ 10 ∧ 10 ^ 10 - 1 - 3 + 3 = 10 ^ 10 - 1 ∧
    ready ((limited [(0o20001, 0o3)]).setQ 0o24) 4 3 false ∧ 10 ^ 10 - 4 + 3 = 10 ^ 10 - 1 ∧
    (doubleReadable 0#3 0#15 ((limited []).setQ 0o12) = true ∧ decValid ((0 : Word) ++ (0o12 : Word) : BitVec (30 + 30)) = false) := by
  decide

/-- Requests of three ranks and of one rank on channels of the three groups. -/
theorem witness_RequestOfBestPriorityGoesFirst :
    let l : List CondInt := [.sync0, .externalIsi 7, .externalIsi 23, .externalIsi 8, .outputMonitorIsi 15]
    l ≠ [] ∧ bestPending l = some (.externalIsi 8) ∧ dueInterrupt ((fetching 0 []).setPending l) = some (.externalIsi 8) := by decide

theorem witness_DecimalComplementAndTestComplete :
    decValid (0o11111111111111111111#60) = true ∧ decValid (0o00000000000000000020#60) = true := by decide

/-- Storage for the floating-point witnesses: x in AQ, m at 000100 and 000101. -/
def fpState (x m : DWord) : State :=
  ((fetching 0 [(0o100, m.extractLsb' 30 30), (0o101, m.extractLsb' 0 30)]).setA (x.extractLsb' 30 30)).setQ (x.extractLsb' 0 30)

/-- The operands of a floating-point witness can be had and are the two numbers. -/
def fpReady (x m : DWord) : Bool :=
  let s := fpState x m
  !s.rep.active && doubleReadable 0#3 0o100#15 s && ((s.a ++ s.q : BitVec (30 + 30)) == x) && (doubleValue 0#3 0o100#15 s == m)

/-- 6.0 + 6.0, which is exact; 6.0 + -6.0; 1.0 + 2^-48; 2^1022 + 2^1022 with e = 1024; and a difference of 2^-1026 (vectors F2, F12, F14, F17). -/
theorem witness_FpAddSubtractComplete :
    (fpReady 0o20036000000000000000#60 0o20036000000000000000#60 = true ∧
      fpValue 0o20036000000000000000#60 + fpValue 0o20036000000000000000#60 = 12 ∧ (2 : ℚ) ^ ((4 : ℤ) - 1) ≤ |12| ∧ |(12 : ℚ)| < 2 ^ (4 : ℤ) ∧
      (⌊|(12 : ℚ)| * 2 ^ (48 - (4 : ℤ))⌋ : ℚ) = |12| * 2 ^ (48 - (4 : ℤ))) ∧
    fpReady 0o20036000000000000000#60 0o57741777777777777777#60 = true ∧
    fpReady 0o20014000000000000000#60 0o17214000000000000000#60 = true ∧
    fpReady 0o37774000000000000000#60 0o37774000000000000000#60 = true ∧
    fpReady 0o00006000000000000000#60 0o00004000000000000000#60 = true ∧
    fpValue 0o20036000000000000000#60 + fpValue 0o57741777777777777777#60 = 0 ∧
    (2 : ℚ) ^ ((1 : ℤ) - 1) ≤ |fpValue 0o20014000000000000000#60 + fpValue 0o17214000000000000000#60| ∧
    |fpValue 0o20014000000000000000#60 + fpValue 0o17214000000000000000#60| < 2 ^ (1 : ℤ) ∧
    fpValue 0o37774000000000000000#60 + fpValue 0o37774000000000000000#60 = 2 ^ ((1024 : ℤ) - 1) ∧
    fpValue 0o00006000000000000000#60 - fpValue 0o00004000000000000000#60 = 2 ^ ((-1025 : ℤ) - 1) := by
  refine ⟨⟨by decide, by simp [fpValue]; norm_num, by norm_num, by norm_num, ?_⟩, by decide, by decide, by decide, by decide, ?_, ?_, ?_, ?_, ?_⟩
  · rw [show |(12 : ℚ)| * 2 ^ (48 - (4 : ℤ)) = ((12 * 2 ^ 44 : ℤ) : ℚ) by norm_num, Int.floor_intCast]
  all_goals simp [fpValue]
  · norm_num [abs_of_pos]
  · norm_num [abs_of_pos]
  · rw [show (2 : ℚ) ^ 1023 = 2 ^ 48 * 2 ^ 975 by rw [← pow_add]]; generalize (2 : ℚ) ^ 975 = z; norm_num; ring
  · rw [show (2 : ℚ) ^ 1072 = 2 ^ 46 * 2 ^ 1026 by rw [← pow_add], mul_inv]; ring

/-- Both operands normalized, positive and negative; a zero divisor of each kind; an operand that is not normalized (vectors F8, F18,
F19). -/
theorem witness_FpMultiplyDivideComplete :
    let normalized := fun (z : DWord) => (z = 0 ∨ z = BitVec.allOnes 60) ∨ z.getLsbD 47 ≠ z.getLsbD 59
    let s := fpState 0o57741777777777777777#60 0o17756000000000000000#60
    (s.rep.active = false ∧ doubleReadable 0#3 0o100#15 s = true ∧ normalized (s.a ++ s.q) ∧ normalized (doubleValue 0#3 0o100#15 s)) ∧
    doubleValue 0#3 0o100#15 (fpState 0o57741777777777777777#60 0#60) = 0 ∧
    doubleValue 0#3 0o100#15 (fpState 0o57741777777777777777#60 0o77777777777777777777#60) = BitVec.allOnes 60 ∧
    ¬ normalized 0o20033000000000000000#60 := by decide

/-- 7706 where C is 0 and where it is 2047; 7707 on a normalized number. -/
theorem witness_FpPackUnpackComplete :
    (canRead (opAddr 0#3 0o177#15 (limited [])) 0 (limited []) = true ∧ canWrite (opAddr 0#3 0o177#15 (limited [])) 0 .lower (limited []) = true) ∧
    (2 ^ 47 ≤ (2 ^ 47 : Nat) ∧ (2 ^ 47 : Nat) < 2 ^ (47 + 1) ∧ 47 ≤ 0 + 47 ∧ 0 + 47 - 47 ≤ 2047) ∧
    (2 ^ 58 ≤ (2 ^ 58 : Nat) ∧ 47 ≤ 2036 + 58 ∧ 2036 + 58 - 47 = 2047) ∧
    ((limited []).ctl.newIfr = .settled ∧ 0o57741777777777777777#60 ≠ BitVec.allOnes 60 ∧
      (0o57741777777777777777#60).getLsbD 47 ≠ (0o57741777777777777777#60).getLsbD 59) := by decide

/-- The condition of j = 4 holding and failing, and a destination at the upper limit. -/
theorem witness_JumpArithmeticCompletes :
    (operandReadable 0#3 0#3 0o177#15 (limited []) = true ∧ (limited []).a = 0 ∧
      destAllowed (jumpDest 0#3 0#3 0o177#15 (limited [])) (afterConvert (jumpNote 0#3 (limited []))) = true) ∧
    (operandReadable 1#3 0#3 0o177#15 ((limited []).setA 5) = true ∧ ((limited []).setA 5).a ≠ 0 ∧ 4#3 ≠ 0#3) := by decide

/-- A jump with stop key 5 set, one with jump key 2 clear, and a stop outside guard mode. -/
theorem witness_JumpManualCompletes :
    (operandReadable 0#3 0#3 0o177#15 (limited []) = true ∧
      destAllowed (jumpDest 0#3 0#3 0o177#15 (limited [])) (afterConvert (jumpNote 0#3 (limited []))) = true ∧
      guardOn (afterConvert (jumpNote 0#3 (limited []))) = true) ∧
    (limited []).panel.key2 ≠ true ∧
    (let s := (fetching 0 []).setPanel { State.reset.panel with stopKey5 := true }
     operandReadable 3#3 0#3 0o1000#15 s = true ∧ destAllowed (jumpDest 3#3 0#3 0o1000#15 s) (afterConvert (jumpNote 3#3 s)) = true ∧
       s.panel.stopKey5 = true ∧ guardOn (afterConvert (jumpNote 3#3 s)) = false) := by decide

/-- The word behind the stored one at the upper limit; the condition of j = 4 holding and failing; a jump key clear. -/
theorem witness_ReturnJumpsComplete :
    (operandReadable 0#3 0#3 0o176#15 (limited []) = true ∧ (limited []).a = 0 ∧
      returnAllowed (returnDest 0#3 0#3 0o176#15 (limited [])) (afterConvert (jumpNote 0#3 (limited []))) = true ∧
      (limited []).lockout.locked = false) ∧
    ((limited []).setA 5).a ≠ 0 ∧ (limited []).panel.key1 ≠ true ∧ ((limited []).setLockout ⟨true, false, 0⟩).lockout.locked = true := by decide

theorem witness_EnterBJumpsComplete :
    let n := capture (limited []).pc (limited [])
    destAllowed (convert 0#3 (effective 0#3 0o177#15 n) n).1 (afterConvert n) = true ∧
      destAllowed (convert 0#3 (effective 0#3 0#15 n) n).1 (afterConvert n) = true := by decide

/-- A target at the upper limit; a target word that may run and one that may not. -/
theorem witness_ExecuteRemoteCompletes :
    (let n := capture (limited []).pc (limited [])
     destAllowed (convert 0#3 (effective 0#3 0o177#15 n) n).1 (afterConvert n) = true) ∧
    (let s := (fetching 0 [(0o2100, 0o1110000005), (0o2101, 0o7737000000), (0o2102, 0o7000000001)]).setFetch (.remote 0o2100)
     s.inputs = [] ∧ s.run = true ∧ s.fetch = .remote 0o2100 ∧ installed s 0o2100 = true ∧ wordBad s 0o2100 = false ∧
       decode (wordAt s 0o2100) = .enterA 1#3 0#3 0#3 5#15 ∧ decode (wordAt s 0o2101) = .executeRemote 0#3 0#15 ∧
       decode (wordAt s 0o2102) = .repeatInstr 0#3 0#3 0#3 1#15) := by decide

/-- Channel 6 with the input flag set and the output flag clear. -/
theorem witness_ChannelJumpsComplete :
    let s := onSix { Channel.idle with inActive := true }
    Unguarded s ∧ channelOf s.cfg (chanNow s) = some 6 ∧ canRead (opAddr 0#3 0o1022#15 s) 0 s = true ∧ (s.chans[6]).inActive = true ∧
      (s.chans[6]).outActive = false ∧ destAllowed (convert 0#3 (effective 0#3 0o1000#15 s) s).1 s = true := by
  unfold Unguarded; decide

/-- B_j equal to the operand and not; B_j zero with a destination outside the limits; and B_j not zero with one inside. -/
theorem witness_IndexSkipAndJumpComplete :
    let s := (limited []).setBExec { BSet.zero with b2 := 5 }
    operandReadable 0#3 0#3 5#15 s = true ∧ bReadIn (bView s) 2#3 s = 5 ∧ bReadIn (bView s) 3#3 s = 0 ∧
      (operandValue 0#3 0#3 5#15 s).toNat = 5 ∧ s.ctl.newIfr ≠ .due ∧
      destAllowed (jumpDest 0#3 0#3 0o200#15 s) (afterConvert (jumpNote 0#3 s)) = false ∧ operandReadable 0#3 0#3 0o200#15 s = true ∧
      destAllowed (jumpDest 0#3 0#3 0o177#15 s) (afterConvert (jumpNote 0#3 s)) = true ∧ operandReadable 0#3 0#3 0o177#15 s = true := by decide

/-- The counts 0 and 377777. -/
theorem witness_RepeatCompletes :
    (operandReadable 0#3 0#3 0#15 (limited []) = true ∧ (operandValue 0#3 0#3 0#15 (limited [])).toNat % 2 ^ 17 = 0) ∧
    (let s := limited [(0o20177, 0o7777777777)]
     operandReadable 3#3 0#3 0o177#15 s = true ∧ (operandValue 3#3 0#3 0o177#15 s).toNat % 2 ^ 17 = 0o377777) := by decide

theorem witness_TestAndSetCompletes :
    (canRead (opAddr 0#3 0o177#15 (limited [])) 0 (limited []) = true ∧ (wordAt (limited []) ((opAddr 0#3 0o177#15 (limited [])).word 0)).getLsbD 14 = false ∧
      canWrite (opAddr 0#3 0o177#15 (limited [])) 0 .lower (limited []) = true) ∧
    (let s := limited [(0o20000, 0o40000)]
     canRead (opAddr 0#3 0#15 s) 0 s = true ∧ (wordAt s ((opAddr 0#3 0#15 s).word 0)).getLsbD 14 = true ∧ s.rep.active = false) := by decide

theorem witness_InterruptingInstructionsEnter : (limited []).rep.active = false ∧ f1Inhibited (limited []) = false := by decide

theorem witness_UnassignedCodesComplete : Unguarded (fetching 0 []) := by unfold Unguarded; decide

/-- Function, status and register words; EI rising on an ISI and on an ESI channel, one that is up already, and one not fitted. -/
theorem witness_ChannelWordsAndSignalsComplete :
    (let s := (onSix Channel.idle).setSel { State.reset.sel with csr := 6, iasr := 0o27 }
     Unguarded s ∧ channelOf s.cfg (chanNow s) = some 6 ∧ canRead (opAddr 0#3 0o1022#15 s) 0 s = true ∧
       canRead (opAddr 0#3 0o77777#15 s) 0 s = true ∧ channelOf s.cfg s.sel.iasr = some 23 ∧
       canWrite (opAddr 0#3 0o300#15 s) 0 .whole s = true ∧ canWrite (opAddr 0#3 0#15 s) 0 .whole s = true ∧
       s.cfg.syncOut[0] = true ∧ s.cfg.syncOut[1] = true) ∧
    (let s := ((onSix { Channel.idle with ei := true }).setCfg
       { Config.standard with esiWired := Vector.replicate 24 true, channelGroups := 0 }).setInputs [.eiUp 5, .eiUp 6, .eiUp 0, .eiUp 12]
     s.inputs = Event.eiUp 5 :: [.eiUp 6, .eiUp 0, .eiUp 12] ∧ channelMode s 5 = .esi ∧ channelMode s 0 = .isi ∧
       fitted s.cfg 5 = true ∧ fitted s.cfg 0 = true ∧ fitted s.cfg 12 = false ∧ (s.chans[5]).ei = false ∧ (s.chans[0]).ei = false ∧
       (s.chans[6]).ei = true) := by
  unfold Unguarded; decide

theorem witness_BuffersActivateAndTerminate :
    let s := onSix Channel.idle
    Unguarded s ∧ channelOf s.cfg (chanNow s) = some 6 ∧ canRead (opAddr 0#3 0o1022#15 s) 0 s = true ∧
      installed s (s.panel.msr ++ BitVec.ofNat 15 (0o100 + 6)) = true ∧
      testReadBad s (s.panel.msr ++ BitVec.ofNat 15 (0o100 + 6)) .lower = false ∧
      testReadBad s (s.panel.msr ++ BitVec.ofNat 15 (0o40 + 6)) .upper = false := by
  unfold Unguarded; decide

/-- The word at 000100, the word at P, the BCWs of channels 5 and 6 and the word at 030000 with a wrong half; outside and inside a
Repeat, within the limits, for both modes of a channel, and as the half that a half-word store leaves. -/
theorem witness_WrongParityIsReported :
    (let s := (fetching 0 [(0o100, 5)]).setParity [0o200]
     immediateK 3#3 = false ∧ installed s ((opAddr 0#3 0o100#15 s).word 0) = true ∧ wordBad s ((opAddr 0#3 0o100#15 s).word 0) = true ∧
       readProtected s = false ∧ s.rep.active = false ∧ storageK 2#3 = true ∧
       testReadBad s ((opAddr 0#3 0o100#15 s).word 0) (partOf 2#3) = true ∧ writeProtected s = false) ∧
    (let s := ((limited []).setParity [2 * 0o20177]).setRep ⟨true, 1#3, 0o177#17, false, some 0o1103000000⟩
     installed s ((opAddr 0#3 0#15 s).word 0) = true ∧ wordBad s ((opAddr 0#3 0#15 s).word 0) = true ∧
       inside s ((opAddr 0#3 0#15 s).word 0) = true ∧ readProtected s = true ∧ s.rep.active = true ∧ s.rep.word.isSome = true) ∧
    (let s := (fetching 0 []).setParity [2 * 0o2000 + 1]
     s.inputs = [] ∧ s.run = true ∧ s.fetch = .program ∧ s.rep.active = false ∧ timeoutDue s = false ∧ dueInterrupt s = none ∧
       installed s s.pc = true ∧ wordBad s s.pc = true) ∧
    (let s := (fetching 0 []).setParity [2 * 0o106, 2 * 0o45]
     channelMode s 6 = .isi ∧ channelMode s 5 = .isi ∧ (s.chans[5]).outDone = false ∧
       installed s (s.panel.msr ++ BitVec.ofNat 15 (0o100 + 6)) = true ∧ wordBad s (s.panel.msr ++ BitVec.ofNat 15 (0o100 + 6)) = true ∧
       installed s (s.panel.msr ++ BitVec.ofNat 15 (0o40 + 5)) = true ∧ wordBad s (s.panel.msr ++ BitVec.ofNat 15 (0o40 + 5)) = true) ∧
    (let s := (fetching 0 [(0o45, 0o0002030000)]).setParity [2 * 0o30000]
     wordBad s (s.panel.msr ++ BitVec.ofNat 15 (0o40 + 5)) = false ∧ wordBad s 0o30000 = true ∧ installed s 0o30000 = true ∧
       (wordAt s (s.panel.msr ++ BitVec.ofNat 15 (0o40 + 5))).extractLsb' 0 17 = 0o30000) ∧
    (let s := (((fetching 0 [(0o542, 0o0002030000)]).setParity [2 * 0o30000]).setCfg
         { Config.standard with esiWired := Vector.replicate 24 true }).setChans
       (State.reset.chans.set 6 { Channel.idle with inLines := 0o542 })
     channelMode s 6 = .esi ∧ s.panel.msr ++ lowerHalf (s.chans[6]).inLines = 0o542#17 ∧ installed s 0o542 = true ∧
       wordBad s 0o542 = false ∧ (wordAt s 0o542).extractLsb' 0 17 = 0o30000 ∧ halfBad s 0o30000 false = true ∧
       wordBad (s.setParity [2 * 0o542]) 0o542 = true ∧ installed s (s.panel.msr ++ BitVec.ofNat 15 (0o40 + 6)) = true) := by decide

theorem witness_ControlRegistersComplete :
    let s := fetching 0 [(0o442, 0o0210000000), (0o443, 0o20000)]
    Unguarded s ∧ doubleReadable 0#3 0o442#15 s = true ∧ canRead (opAddr 0#3 0o77777#15 s) 0 s = true ∧
      canWrite (opAddr 0#3 0#15 s) 0 .whole s = true := by
  unfold Unguarded; decide

/-- With and without a Repeat to be resumed; an operand word at 020100 whose destination, by RIR and by LL, the new limits allow, and
one they deny. -/
theorem witness_NewIfrTakesEffectAfterOneConversion :
    (afterLoad.ctl.newIfr = .due ∧ afterLoad.ctl.reinit = false) ∧
    (let s := afterLoad.setCtl { afterLoad.ctl with reinit := true, ifr := 0o4012001002 }
     s.ctl.newIfr = .due ∧ s.ctl.reinit = true ∧ s.ctl.ifr.getLsbD 26 = false) ∧
    (let s := (afterLoad.setMem [(0o20100, 0o2003401000)]).setCtl { afterLoad.ctl with reinit := true }
     s.ctl.newIfr = .due ∧ s.ctl.reinit = true ∧ s.ctl.ifr.getLsbD 26 = true ∧ 4 ≤ ((wordAt s 0o20100).extractLsb' 15 3).toNat) ∧
    (let s := (afterLoad.setMem [(0o20100, 0o177)]).setCtl
       { afterLoad.ctl with ifr := 0o1010000000, plrUL := 0o201, plrLL := 0o200 }
     s.ctl.newIfr = .due ∧ s.rep.active = false ∧ effective 0#3 0o100#15 s + (s.ctl.rirIV ++ 0#6) = 0o20100 ∧
       effective 5#3 0o100#15 s + (s.ctl.rirIV ++ 0#6) = 0o20100 ∧ s.ctl.ifr.getLsbD 27 = true ∧ installed s 0o20100 = true ∧
       wordBad s 0o20100 = false ∧ immediateK 3#3 = false ∧ s.ctl.ifr.extractLsb' 21 2 = 1#2 ∧
       (wordAt s 0o20100).toNat + 0o20000 = 0o201 * 64 + 63 ∧
       (wordAt (s.setMem [(0o20100, 0o200)]) 0o20100).toNat + 0o20000 = 0o201 * 64 + 63 + 1) ∧
    (afterLoad.setCtl { afterLoad.ctl with newIfr := .loading }).ctl.newIfr = .loading ∧ (fetching 0 []).ctl.newIfr = .settled := by decide

theorem witness_InterruptEntry : (limited []).rep.active = false := by decide

theorem witness_InterruptInsideRepeat :
    let s := (limited []).setRep ⟨true, 1#3, 0o1002#17, false, some 0o2003001000⟩
    s.rep.active = true ∧ s.rep.word.isSome = true ∧ s.ctl.ifrHold = false := by decide

/-- The first and the last code of the list, and the guard mode. -/
theorem witness_PrivilegedWordsTrapInGuardMode : privilegedWord 0o1300000000#30 = true ∧ privilegedWord 0o7777777777#30 = true ∧
    (limited []).ctl.ifrActive = true ∧ (govIfr (limited [])).getLsbD 21 = true ∧ (limited []).rep.active = false := by decide

/-- The addresses just above the upper and just below the lower limit, with f3 = 01; with f3 = 10 a readable word outside; and under Repeat
with j = 5 a readable operand whose displaced destination lies outside. -/
theorem witness_ProtectionDeniesTheReference :
    (limited []).ctl.ifrActive = true ∧ (limited []).ctl.newIfr = .settled ∧ (limited []).rep.active = false ∧
    (opAddr 0#3 0o200#15 (limited [])).base.toNat = 0o201 * 64 + 63 + 1 ∧
    (limited []).ctl.ifr.extractLsb' 21 2 = 1#2 ∧ immediateK 3#3 = false ∧ storageK 7#3 = true ∧ replaceK 3#3 = true ∧
    (let s := (limited []).setCtl { (limited []).ctl with rirIV := 0o177 }
     (opAddr 0#3 0o77#15 s).base.toNat = 0o200 * 64 - 1 ∧ s.ctl.plrLL.toNat = 0o200) ∧
    (let s := (limited []).setCtl { (limited []).ctl with ifr := 0o0020000000 }
     s.ctl.ifrActive = true ∧ s.ctl.newIfr = .settled ∧ (s.ctl.ifr.extractLsb' 21 2).getLsbD 1 = true ∧
       canRead (opAddr 0#3 0o200#15 s) 0 s = true ∧ (opAddr 0#3 0o200#15 s).base.toNat = 0o201 * 64 + 63 + 1 ∧
       (replaceDest 0#3 0o200#15 s).base.toNat = 0o201 * 64 + 63 + 1 ∧ (operandWord 0#3 0o200#15 0 s).getLsbD 14 = false) ∧
    (let s := ((limited []).setRep ⟨true, 5#3, 0#17, false, some 0o2403000000⟩).setBExec { BSet.zero with b6 := 0o200 }
     s.ctl.ifrActive = true ∧ s.ctl.newIfr = .settled ∧ s.rep.active = true ∧ s.rep.word.isSome = true ∧
       s.ctl.ifr.extractLsb' 21 2 ≠ 0#2 ∧ canRead (opAddr 0#3 0#15 s) 0 s = true ∧
       (replaceDest 0#3 0#15 s).base.toNat = 0o201 * 64 + 63 + 1) ∧
    (let s := (limited []).setRep ⟨true, 1#3, 0o200#17, false, some 0o1103000000⟩
     s.rep.active = true ∧ s.rep.word.isSome = true ∧ (opAddr 0#3 0#15 s).base.toNat = 0o201 * 64 + 63 + 1) := by decide

theorem witness_StopsAreNamed :
    (Unguarded (fetching 0 []) ∧ 1#4 ≠ 0#4 ∧ 1#2 ≠ 0#2) ∧
    (operandReadable 0#3 0#3 0o74#15 (limited []) = true ∧ 59 < (operandValue 0#3 0#3 0o74#15 (limited [])).toNat % 64) ∧
    59 < (effective 0#3 0o74#15 (limited [])).toNat % 64 ∧
    (let s := (((fetching 0 []).setCfg { Config.standard with largeStorage := false, channelGroups := 0 }).setPanel
       { State.reset.panel with msr := 2#2 }).setSel { State.reset.sel with csr := 0o14 }
     readProtected s = false ∧ s.ctl.newIfr = .settled ∧ installed s (opAddr 0#3 0#15 s).base = false ∧
       Unguarded s ∧ channelOf s.cfg (chanNow s) = none) := by
  unfold Unguarded; decide

/-- Two requests pending; and a Timeout due after 100001 nanoseconds. -/
theorem witness_DueInterruptsAreTakenInOrder :
    (let s := (fetching 0 []).setPending [.sync0, .externalIsi 3]
     s.inputs = [] ∧ s.run = true ∧ s.fetch = .program ∧ s.rep.active = false ∧ s.lockout.locked = false ∧ s.ctl.newIfr ≠ .due ∧
       s.pending ≠ []) ∧
    (let s := (limited []).setLockout ⟨true, true, 100001⟩
     s.inputs = [] ∧ s.run = true ∧ s.fetch = .program ∧ s.rep.active = false ∧ guardOn s = true ∧ s.lockout.locked = true ∧
       s.lockout.bySil = true ∧ 100000 < s.lockout.silTimer) :=
  ⟨by decide, by decide, by decide, by decide, by decide, by decide, by decide, by decide, by show 100000 < 100001; norm_num⟩

/-- A word at P, and one at a fixed location. -/
theorem witness_StepRunsDecodedInstruction :
    (let s := fetching 0o1100000005 []
     s.inputs = [] ∧ s.run = true ∧ s.fetch = .program ∧ s.rep.active = false ∧ timeoutDue s = false ∧ dueInterrupt s = none ∧
       installed s s.pc = true ∧ wordBad s s.pc = false ∧ s.overlap = [] ∧
       decode (wordAt s s.pc) = .enterA 0#3 0#3 0#3 5#15) ∧
    (let s := (fetching 0 [(7, 0o7744000400)]).setFetch (.fixed 7#15)
     s.inputs = [] ∧ s.run = true ∧ s.fetch = .fixed 7#15 ∧ s.panel.msr ++ 7#15 = 7#17 ∧ installed s 7 = true ∧
       wordBad s 7 = false) := by decide

/-- The second execution of vector Q1's ADD_A. -/
theorem witness_RepeatedExecutionSteps :
    let s := ((fetching 0 [(0o1001, 2)]).setBExec { BSet.zero with b7 := 2 }).setRep ⟨true, 1#3, 0o1001#17, false, some 0o2003001000⟩
    s.inputs = [] ∧ s.run = true ∧ s.fetch = .program ∧ timeoutDue s = false ∧ dueInterrupt s = none ∧ s.rep.active = true ∧
      s.rep.first = false ∧ s.rep.word = some 0o2003001000 ∧ decode 0o2003001000 = .addA 0#3 3#3 0#3 0o1000#15 ∧
      repeatFields (.addA 0#3 3#3 0#3 0o1000#15) = some (0#3, 0o1000#15) ∧ repeatCountLeft s ≠ 0 ∧
      (match exec (.addA 0#3 3#3 0#3 0o1000#15) (s.setOverlap []) with
        | .next u => u.fetch == .program && u.a == 2
        | .fault _ => false
        | .refused _ => false) = true := by decide

/-- A last word in, a word out, and the ODR after the last word out. -/
theorem witness_IsiTransfers :
    (let s := (fetching 0 [(0o106, 0o0001020376)]).setChans (State.reset.chans.set 6 { Channel.idle with inActive := true, inMon := true })
     channelMode s 6 = .isi ∧ installed s 0o106 = true ∧ wordBad s 0o106 = false ∧ installed s ((wordAt s 0o106).extractLsb' 0 17) = true ∧
       (wordAt s 0o106).extractLsb' 18 12 = 1#12) ∧
    (let s := (fetching 0 [(0o45, 0o0002030000)]).setChans (State.reset.chans.set 5 { Channel.idle with outActive := true })
     channelMode s 5 = .isi ∧ (s.chans[5]).outDone = false ∧ installed s 0o45 = true ∧ wordBad s 0o45 = false ∧
       installed s 0o30000 = true ∧ wordBad s 0o30000 = false ∧ (wordAt s 0o45).extractLsb' 0 17 = 0o30000 ∧
       (wordAt s 0o45).extractLsb' 18 12 ≠ 1#12) ∧
    (let s := (fetching 0 []).setChans (State.reset.chans.set 5 { Channel.idle with outDone := true, outMon := true })
     channelMode s 5 = .isi ∧ (s.chans[5]).outDone = true) := by decide

theorem witness_EsiTransfers :
    let s := ((fetching 0 [(0o542, 0o0002031000)]).setCfg { Config.standard with esiWired := Vector.replicate 24 true }).setChans
      (State.reset.chans.set 14 { Channel.idle with inLines := 0o0000700542 })
    channelMode s 14 = .esi ∧ s.panel.msr ++ lowerHalf (s.chans[14]).inLines = 0o542#17 ∧ installed s 0o542 = true ∧
      wordBad s 0o542 = false ∧ (wordAt s 0o542).extractLsb' 0 17 = 0o31000 ∧ installed s 0o31000 = true ∧ wordBad s 0o31000 = false ∧
      (0o542 : Addr) ≠ 0o31000 ∧ installed s 0o56 = true ∧ (0o56 : Addr) ≠ 0o542 := by decide

/-- The clock locations installed; the count about to recycle, and not (vector X13). -/
theorem witness_ClockUpdates :
    installed (fetching 0 []) (State.reset.panel.msr ++ 0o16#15) = true ∧ installed (fetching 0 []) (State.reset.panel.msr ++ 0o17#15) = true ∧
    (wordAt (fetching 0 [(0o17, 0o777777)]) 0o17).toNat % 2 ^ 18 = 2 ^ 18 - 1 ∧
    (wordAt (fetching 0 []) 0o17).toNat % 2 ^ 18 ≠ 2 ^ 18 - 1 := by decide

theorem witness_AddressConversion : (limited []).ctl.newIfr = .settled ∧ (limited []).ctl.rirActive = true ∧ (limited []).ctl.ifrActive = true ∧
    (fetching 0 []).ctl.newIfr = .settled ∧ (fetching 0 []).ctl.rirActive = false := by decide

/-- The step answers a next state. -/
def steps (s : State) : Bool := after s fun _ => true

/-- A store with a word listed, and the same from reset. -/
theorem witness_StorageInvIsKept :
    (StorageInv (fetching 0o1503000300 [(0o300, 5)]) ∧ steps (fetching 0o1503000300 [(0o300, 5)]) = true) ∧ StorageInv State.reset := by
  unfold StorageInv; decide

/-- A request taken into IASR, on channel 23, the last fitted one. -/
theorem witness_ChannelInvIsKept :
    let s := (fetching 0 []).setPending [.externalIsi 23]
    (s.pending.Nodup ∧ (∀ x ∈ s.pending, fitted s.cfg ((x.channel).getD 0) = true) ∧ channelCount s.cfg = 24 ∧ s.sel.useIasr = false ∧
      s.sel.usePecsr = false) ∧ after s (fun t => t.sel.useIasr && t.sel.iasr == 23) = true := by decide

/-- An open entrance whose instruction closes it; and the instruction after a 7761. -/
theorem witness_EntryInvIsKept :
    (let s := (((fetching 0 [(7, 0o7744000400)]).setFetch (.fixed 7#15)).setEntryOpen true).setCtl { State.reset.ctl with ifrHold := true }
     EntryInv (s.setLockout ⟨true, false, 0⟩) ∧ steps (s.setLockout ⟨true, false, 0⟩) = true) ∧
    (EntryInv afterLoad ∧ steps afterLoad = true) := by
  unfold EntryInv; decide

theorem witness_MasterClearResets :
    (let s := (fetching 0 []).setInputs [.masterClear, .start]
     s.inputs = Event.masterClear :: [.start] ∧ s.run = true) ∧
    (let s := State.reset.setInputs [.masterClear]
     s.inputs = Event.masterClear :: [] ∧ s.run = false) := by decide

/-- The 7761 of P4 at 000402, at a fixed location and as an Execute Remote's target, after which a newly loaded IFR waits. -/
theorem witness_ExecutiveStateLeftOnlyBy7761 :
    let m : List (Nat × Word) := [(7, 0o7761000442), (0o442, 0o0210000000), (0o443, 0o0000020000)]
    let waits := fun s : State =>
      decide (s.ctl.ifrActive = false ∧ s.ctl.newIfr = .settled) && after s (fun t => t.ctl.newIfr != .settled)
    waits (fetching 0o7761000442 m) = true ∧ waits ((fetching 0 m).setFetch (.fixed 7#15)) = true ∧
      waits ((fetching 0 m).setFetch (.remote 7#17)) = true := by decide

end Sys2Proof.Tests
end

section
/-! What a step can do, said once: every instruction is made of the elementary updates of `Update`, at most one special act, and may
end in an unconditional interrupt; every event of the script is made of the updates of `AgentUpdate`. An invariant is then a check of
each update. -/

namespace Sys2Proof.Machine

open Sys2Proof

/-! ## Elementary updates -/

/-- One elementary update that the run of any instruction may make. -/
inductive Update : State → State → Prop
  | setA (s : State) (v : Word) : Update s (s.setA v)
  | setQ (s : State) (v : Word) : Update s (s.setQ v)
  | setBExec (s : State) (r : BSet) : Update s (s.setBExec r)
  | setBWork (s : State) (r : BSet) : Update s (s.setBWork r)
  | setPc (s : State) (a : Addr) : Update s (s.setPc a)
  | stop (s : State) : Update s (s.setRun false)
  | setRep (s : State) (r : RepeatState) : Update s (s.setRep r)
  | setOverlap (s : State) (l : List (Addr × Word)) : Update s (s.setOverlap l)
  | spend (s : State) : Update s (spend s)
  | emit (x : Signal) (s : State) : Update s (emit x s)
  | setIfr (w : Word) (s : State) : Update s (setIfr w s)
  | setPlr (s : State) (ul ll : BitVec 11) : Update s (s.setCtl { s.ctl with plrUL := ul, plrLL := ll })
  | dropReinit (s : State) : Update s (s.setCtl { s.ctl with reinit := false })
  | activate {s : State} (h : s.ctl.newIfr = .due) : Update s (activate s)
  | store {a : Addr} {s : State} (h : installed s a = true) (p : Part) (v : Word) : Update s (storeWord a p v s)

/-- A chain of elementary updates. -/
abbrev Routine : State → State → Prop := Relation.ReflTransGen Update

variable {s t u : State}

/-- A property that every link of a chain keeps is kept by the chain. -/
theorem chain_keeps {r : State → State → Prop} {p : State → Prop} (hp : ∀ {s t}, r s t → p s → p t)
    (h : Relation.ReflTransGen r s t) (hs : p s) : p t := by
  induction h with
  | refl => exact hs
  | tail _ hr ih => exact hp hr ih

/-- A field that no elementary update writes is as before. -/
theorem Routine.field_eq {β : Type} (f : State → β) (hf : ∀ {s t}, Update s t → f t = f s) (h : Routine s t) : f t = f s :=
  chain_keeps (p := fun u => f u = f s) (fun hu e => (hf hu).trans e) h rfl

theorem Routine.cfg (h : Routine s t) : t.cfg = s.cfg := h.field_eq State.cfg fun hu => by cases hu <;> rfl

theorem Routine.fetch (h : Routine s t) : t.fetch = s.fetch := h.field_eq State.fetch fun hu => by cases hu <;> rfl

/-! ## The shared operations as chains of updates -/

theorem Routine.setA (h : Routine s t) (v : Word) : Routine s (t.setA v) := h.tail (.setA t v)

theorem Routine.setQ (h : Routine s t) (v : Word) : Routine s (t.setQ v) := h.tail (.setQ t v)

theorem Routine.setBWork (h : Routine s t) (r : BSet) : Routine s (t.setBWork r) := h.tail (.setBWork t r)

theorem Routine.setPc (h : Routine s t) (a : Addr) : Routine s (t.setPc a) := h.tail (.setPc t a)

theorem Routine.setRep (h : Routine s t) (r : RepeatState) : Routine s (t.setRep r) := h.tail (.setRep t r)

theorem Routine.setOverlap (h : Routine s t) (l : List (Addr × Word)) : Routine s (t.setOverlap l) := h.tail (.setOverlap t l)

theorem Routine.spend (h : Routine s t) : Routine s (spend t) := h.tail (.spend t)

theorem Routine.emit (h : Routine s t) (x : Signal) : Routine s (emit x t) := h.tail (.emit x t)

theorem Routine.setIfr (h : Routine s t) (w : Word) : Routine s (setIfr w t) := h.tail (.setIfr w t)

theorem Routine.setPlr (h : Routine s t) (ul ll : BitVec 11) : Routine s (t.setCtl { t.ctl with plrUL := ul, plrLL := ll }) :=
  h.tail (.setPlr t ul ll)

theorem Routine.store (h : Routine s t) {a : Addr} (hi : installed t a = true) (p : Part) (v : Word) : Routine s (storeWord a p v t) :=
  h.tail (.store hi p v)

/-- Either branch of a conditional is a chain of updates. -/
theorem Routine.ite {c : Prop} [Decidable c] (ht : Routine s t) (hu : Routine s u) : Routine s (if c then t else u) := by
  split
  · exact ht
  · exact hu

theorem Routine.setAq (h : Routine s t) (d : DWord) : Routine s (setAq d t) := (h.setA _).setQ _

theorem Routine.freeA (h : Routine s t) : Routine s (freeA t) := (h.setA _).spend

theorem Routine.freeAq (h : Routine s t) : Routine s (freeAq t) := (h.freeA.setQ _).spend

theorem Routine.freeDecimal (h : Routine s t) (keepSign : Bool) : Routine s (freeDecimal keepSign t) := ((h.setAq _).spend).spend

theorem Routine.skipIf (h : Routine s t) (c : Bool) : Routine s (skipIf c t) := .ite (h.setPc _) h

theorem Routine.putBSet (h : Routine s t) (c : BView) (r : BSet) : Routine s (putBSet c r t) :=
  .ite (h.setBWork r) (h.tail (.setBExec t r))

theorem Routine.bWriteIn (h : Routine s t) (c : BView) (i : BitVec 3) (v : Addr) : Routine s (bWriteIn c i v t) := h.putBSet c _

theorem Routine.bWritePhysical (h : Routine s t) (c : BView) (i : BitVec 3) (v : Addr) : Routine s (bWritePhysical c i v t) :=
  h.putBSet c _

theorem Routine.capture (h : Routine s t) (a : Addr) : Routine s (capture a t) := .ite h (h.setIfr _)

theorem Routine.afterConvert (h : Routine s t) : Routine s (afterConvert t) := by
  unfold Machine.afterConvert
  split
  · exact h.tail (.activate ‹_›)
  · exact h

theorem Routine.convert (h : Routine s t) (b : BitVec 3) (r : Addr) : Routine s (convert b r t).2 := by
  rw [convert_snd]; exact h.afterConvert

theorem Routine.captureUnused (h : Routine s t) (b : BitVec 3) (y : BitVec 15) : Routine s (captureUnused b y t) :=
  .ite h (h.capture _).spend

theorem Routine.operandAddr (h : Routine s t) (cap : Bool) (b : BitVec 3) (y : BitVec 15) : Routine s (operandAddr cap b y t).2 := by
  rw [operandAddr_eq]; exact .ite (h.afterConvert.capture _) h.afterConvert

theorem Routine.replaceAddr (h : Routine s t) (o : OpAddr) (b : BitVec 3) : Routine s (replaceAddr o b t).2 := by
  unfold Machine.replaceAddr
  split
  · exact h.convert _ _
  · exact h

theorem Routine.eitherA (h : Routine s t) (old : Word) : Routine s (eitherA old t) := (Routine.ite h (h.setA old)).spend

theorem Routine.eitherAq (h : Routine s t) (old : DWord) : Routine s (eitherAq old t) := (Routine.ite h (h.setAq old)).spend

theorem Routine.eitherB (h : Routine s t) (v : BView) (old : BSet) : Routine s (eitherB v old t) :=
  (Routine.ite h (h.putBSet v old)).spend

theorem Routine.spendHazard (h : Routine s t) : Routine s (spendHazard t) := .ite h.spend h

theorem Routine.setCarry (h : Routine s t) (v : Bool) : Routine s (setCarry v t) := h.setIfr _

theorem Routine.setBorrow (h : Routine s t) (v : Bool) : Routine s (setBorrow v t) := h.setIfr _

theorem Routine.stopIf (h : Routine s t) (j : BitVec 3) : Routine s (stopIf j t) := .ite (.ite h (h.tail (.stop t))) h

theorem Routine.loadPc (h : Routine s t) (a : Addr) : Routine s (loadPc a t) :=
  .ite (((h.setPc a).setRep _).tail (.dropReinit _)) (h.setPc a)

/-! ## How an instruction ends -/

/-- Every next state that an operation answers is as said. -/
def Yields (o : Result) (q : State → Prop) : Prop := ∀ t, o = .next t → q t

theorem Yields.next {q : State → Prop} (h : q t) : Yields (.next t) q := by rintro _ ⟨⟩; exact h

theorem Yields.fault {q : State → Prop} (r : Fault) : Yields (.fault r) q := by rintro _ ⟨⟩

theorem Yields.refused {q : State → Prop} (r : Refusal) : Yields (.refused r) q := by rintro _ ⟨⟩

theorem Yields.ite {q : State → Prop} {c : Prop} [Decidable c] {o o' : Result} (h : c → Yields o q) (h' : ¬c → Yields o' q) :
    Yields (if c then o else o') q := by
  split
  · exact h ‹_›
  · exact h' ‹_›

theorem Yields.imp {q r : State → Prop} {o : Result} (h : Yields o q) (hqr : ∀ t, q t → r t) : Yields o r :=
  fun t e => hqr t (h t e)

/-- A chain of updates, after which an unconditional interrupt may be taken. -/
inductive Ends (s : State) : State → Prop
  | done {t : State} (h : Routine s t) : Ends s t
  | interrupted {u : State} (h : Routine s u) (x : UncondInt) (a : Option Addr) : Ends s (enter (.uncond x) a u)

theorem Ends.of_routine (h : Routine s t) {v : State} (e : Ends t v) : Ends s v := by
  cases e with
  | done h' => exact .done (h.trans h')
  | interrupted h' x a => exact .interrupted (h.trans h') x a

theorem Routine.next (h : Routine s t) : Yields (.next t) (Ends s) := .next (.done h)

theorem Routine.raise (h : Routine s t) (x : UncondInt) (a : Option Addr) : Yields (raise x a t) (Ends s) :=
  .next (.interrupted h x a)

theorem Routine.endNormal (h : Routine s t) (j : BitVec 3) : Yields (endNormal j t) (Ends s) := (h.skipIf _).next

theorem Routine.protection (h : Routine s t) (a : Addr) (report : Bool) : Yields (protection a report t) (Ends s) :=
  Routine.raise (.ite (h.capture a) h) _ _

theorem Routine.parityStop (h : Routine s t) (a : Addr) : Yields (parityStop a t) (Ends s) :=
  .ite (fun _ => h.raise _ _) fun _ => (Routine.ite h (h.setPc _)).spend.raise _ _

/-- An operation inside an instruction goes on after a chain of updates, or ends the instruction. -/
inductive Proceeds {α : Type} (s : State) : Res α → Prop
  | ok {t : State} (v : α) (h : Routine s t) : Proceeds s (.ok v t)
  | stop {o : Result} (h : Yields o (Ends s)) : Proceeds s (.stop o)

/-- What is done after an operation is begun in the state it goes on from. -/
theorem Proceeds.yields {α : Type} {r : Res α} {q : State → Prop} {k : α → State → Result} (h : Proceeds s r)
    (hq : ∀ t, Ends s t → q t) (hk : ∀ v t, Routine s t → Yields (k v t) q) : Yields (r.andThen k) q := by
  cases h with
  | ok v h => exact hk v _ h
  | stop h => exact h.imp hq

theorem Proceeds.andThen {α : Type} {r : Res α} {k : α → State → Result} (h : Proceeds s r)
    (hk : ∀ v t, Routine s t → Yields (k v t) (Ends s)) : Yields (r.andThen k) (Ends s) := h.yields (fun _ e => e) hk

theorem Proceeds.bind {α β : Type} {r : Res α} {k : α → State → Res β} (h : Proceeds s r)
    (hk : ∀ v t, Routine s t → Proceeds s (k v t)) : Proceeds s (r.bind k) := by
  cases h with
  | ok v h => exact hk v _ h
  | stop h => exact .stop h

/-! ## References and operands -/

theorem Routine.cpuRead (h : Routine s t) (a : Addr) : Proceeds s (cpuRead a t) := by
  rcases cpuRead_cases a t with ⟨e, -, -⟩ | ⟨e, -⟩ | ⟨e, -⟩ <;> rw [e]
  · exact .ok _ h
  · exact .stop (h.parityStop a)
  · exact .stop (.fault _)

theorem Routine.cpuWrite (h : Routine s t) (a : Addr) (p : Part) (v : Word) : Proceeds s (cpuWrite a p v t) := by
  rcases cpuWrite_cases a p v t with ⟨e, hi, -⟩ | ⟨e, hi⟩ | ⟨e, -⟩ <;> rw [e]
  · exact .ok _ (h.store hi p v)
  · exact .stop ((h.store hi p v).parityStop a)
  · exact .stop (.fault _)

theorem Routine.readAt (h : Routine s t) (o : OpAddr) (report : Bool) (n : Nat) : Proceeds s (readAt o report n t) := by
  rcases readAt_cases o report n t with e | e <;> rw [e]
  · exact .stop (h.protection _ _)
  · exact h.cpuRead _

theorem Routine.writeAt (h : Routine s t) (o : OpAddr) (report : Bool) (n : Nat) (p : Part) (v : Word) {onDeny : State → State}
    (hd : Routine s (onDeny t)) : Proceeds s (writeAt o report n p v onDeny t) := by
  rcases writeAt_cases o report n p v onDeny t with e | e <;> rw [e]
  · exact .stop (hd.protection _ _)
  · exact h.cpuWrite _ _ _

theorem Routine.dataOperand (h : Routine s t) (cap : Bool) (b : BitVec 3) (y : BitVec 15) : Proceeds s (dataOperand cap b y t) :=
  .ok _ (.ite (h.capture _) h)

theorem Routine.readOperand (h : Routine s t) (cap : Bool) (k b : BitVec 3) (y : BitVec 15) : Proceeds s (readOperand cap k b y t) := by
  unfold Machine.readOperand
  split
  · exact (h.dataOperand cap b y).bind fun _ _ h' => .ok _ h'
  · exact (h.dataOperand cap b y).bind fun _ _ h' => .ok _ h'
  · exact .ok _ (.ite (h.captureUnused b y) h)
  · exact ((h.operandAddr cap b y).readAt _ _ _).bind fun _ _ h' => .ok _ h'

theorem Routine.readWord (h : Routine s t) (b : BitVec 3) (y : BitVec 15) : Proceeds s (readWord b y t) :=
  (h.operandAddr true b y).readAt _ _ _

theorem Routine.readDouble (h : Routine s t) (b : BitVec 3) (y : BitVec 15) : Proceeds s (readDouble b y t) :=
  ((h.operandAddr true b y).readAt _ _ _).bind fun _ _ h0 => (h0.readAt _ _ _).bind fun _ _ h1 => .ok _ h1

theorem Routine.readWords (o : OpAddr) (m : Nat) : ∀ (n : Nat) {t : State}, Routine s t → Proceeds s (readWords o n m t) := by
  induction m with
  | zero => exact fun _ _ h => .ok _ h
  | succ m ih => exact fun n _ h => (h.readAt o true n).bind fun _ _ h1 => (ih (n + 1) h1).bind fun _ _ h2 => .ok _ h2

theorem Routine.storeOperand (h : Routine s t) (k b : BitVec 3) (y : BitVec 15) (v : Word) {onDeny : State → State}
    (hd : ∀ {u}, Routine s u → Routine s (onDeny u)) : Proceeds s (storeOperand k b y v onDeny t) :=
  (h.operandAddr true b y).writeAt _ _ _ _ _ (hd (h.operandAddr true b y))

theorem Routine.storeWhole (h : Routine s t) (b : BitVec 3) (y : BitVec 15) (v : Word) : Proceeds s (storeWhole b y v t) :=
  (h.operandAddr true b y).writeAt _ _ _ _ _ (h.operandAddr true b y)

theorem Routine.writeWords (o : OpAddr) (p : Part) (ws : List Word) :
    ∀ (n : Nat) {t : State}, Routine s t → Proceeds s (writeWords o p n ws t) := by
  induction ws with
  | nil => exact fun _ _ h => .ok _ h
  | cons w ws ih => exact fun n _ h => (h.writeAt o true n p w h).bind fun _ _ h1 => ih (n + 1) h1

theorem Routine.enterWords (put : Nat → Word → State → State) (hput : ∀ n w {t}, Routine s t → Routine s (put n w t)) (o : OpAddr)
    (m : Nat) : ∀ (n : Nat) {t : State}, Routine s t → Yields (enterWords put o n m t) (Ends s) := by
  induction m with
  | zero => exact fun _ _ h => h.next
  | succ m ih => exact fun n _ h => (h.readAt o true n).andThen fun w _ h1 => ih (n + 1) (hput n w h1)

theorem Routine.replaceOperand (h : Routine s t) (k b : BitVec 3) (y : BitVec 15) (f : State → Word → Word) :
    Proceeds s (replaceOperand k b y f t) := by
  unfold Machine.replaceOperand
  split
  · refine ((h.operandAddr true b y).readAt _ _ _).bind fun w u hu => ?_
    have hr := (hu.replaceAddr (Machine.operandAddr true b y t).1 b).setA (f u (selectPart k w))
    exact hr.writeAt _ _ _ _ _ (hr.eitherA _)
  · exact .stop (.refused _)

theorem Routine.jumpOperand (h : Routine s t) (k b : BitVec 3) (y : BitVec 15) : Proceeds s (jumpOperand k b y t) :=
  (h.capture _).readOperand false k b y

theorem Routine.channelJumpOperand (h : Routine s t) (kh : BitVec 2) (b : BitVec 3) (y : BitVec 15) :
    Proceeds s (channelJumpOperand kh b y t) := by
  have ha := (h.capture t.pc).operandAddr false b y
  unfold Machine.channelJumpOperand
  split
  · exact (h.capture _).dataOperand false b y
  · exact (ha.readAt _ _ _).bind fun _ _ h1 => .ok _ h1
  · exact (ha.readAt _ _ _).bind fun _ _ h1 => .ok _ h1

theorem Routine.loadBcw (h : Routine s t) (kh : BitVec 2) (n : BitVec 15) (b : BitVec 3) (y : BitVec 15) :
    Proceeds s (loadBcw kh n b y t) := by
  unfold Machine.loadBcw
  split
  · exact .ok _ (h.captureUnused b y)
  all_goals exact (h.readWord b y).bind fun _ _ h1 => h1.cpuWrite _ _ _

theorem Routine.countOf (h : Routine s t) (low : BitVec 6) : Proceeds s (countOf low t) := by
  unfold Machine.countOf
  split
  · exact .ok _ h
  · exact .stop (.refused _)

/-! ## Jumps -/

theorem Routine.jumpTo (h : Routine s t) (b : BitVec 3) (a : Addr) {onDeny after : State → State}
    (hd : ∀ {u}, Routine s u → Routine s (onDeny u)) (ha : ∀ {u}, Routine s u → Routine s (after u)) :
    Yields (jumpTo b a onDeny after t) (Ends s) := by
  rcases jumpTo_cases b a onDeny after t with e | e <;> rw [e]
  · exact (ha (h.afterConvert.loadPc _)).next
  · exact (hd h.afterConvert).protection _ _

theorem Routine.returnJump (h : Routine s t) (b : BitVec 3) (a : Addr) {after : State → State}
    (ha : ∀ {u}, Routine s u → Routine s (after u)) : Yields (returnJump b a after t) (Ends s) :=
  .ite (fun _ => (h.convert b a).protection _ _) fun _ => .ite (fun _ => (h.convert b a).protection _ _) fun _ =>
    ((h.convert b a).cpuWrite _ _ _).andThen fun _ _ h1 => (ha (h1.loadPc _)).next

end Sys2Proof.Machine
end

section
/-! Every instruction as a chain of updates with at most one special act: the meanings that are more than one operation, then the
dispatch. -/

namespace Sys2Proof.Machine

open Sys2Proof

variable {s t u : State}

/-! ## Meanings that only update -/

theorem shiftNormal_ends (f : Nat → State → State) (hf : ∀ n {t}, Routine s t → Routine s (f n t)) (j k b : BitVec 3)
    (y : BitVec 15) : Yields (shiftNormal f j k b y s) (Ends s) :=
  ((Routine.readOperand .refl true k b y).bind fun _ _ h => h.countOf _).andThen fun n _ h => (hf n h).endNormal j

theorem shiftLogical_ends (f : Nat → State → State) (hf : ∀ n {t}, Routine s t → Routine s (f n t)) (b : BitVec 3) (y : BitVec 15) :
    Yields (shiftLogical f b y s) (Ends s) :=
  ((Routine.dataOperand .refl true b y).bind fun _ _ h => h.countOf _).andThen fun n _ h => (hf n h).next

theorem replaceNormal_ends (f : State → Word → Word) (j k b : BitVec 3) (y : BitVec 15) :
    Yields (replaceNormal f j k b y s) (Ends s) :=
  (Routine.replaceOperand .refl k b y f).andThen fun _ _ h => h.endNormal j

theorem selective_ends (f : State → Word → Word) (j k b : BitVec 3) (y : BitVec 15) : Yields (selective f j k b y s) (Ends s) :=
  (Routine.readOperand .refl true k b y).andThen fun _ _ h => (h.setA _).endNormal j

/-- A read-class operand goes into the registers and the instruction skips. -/
theorem readThenSkip_ends (f : Word → State → State) (hf : ∀ v {t}, Routine s t → Routine s (f v t)) (c : Word → State → Bool)
    (k b : BitVec 3) (y : BitVec 15) :
    Yields ((readOperand true k b y s).andThen fun v t => .next (skipIf (c v t) (f v t))) (Ends s) :=
  (Routine.readOperand .refl true k b y).andThen fun v _ h => ((hf v h).skipIf _).next

/-- The result goes into a register for k = 0 and k = 4, into storage for the other k. -/
theorem storeClass_ends (f g : State → State) (hf : ∀ {t}, Routine s t → Routine s (f t)) (hg : ∀ {t}, Routine s t → Routine s (g t))
    {onDeny : State → State} (hd : ∀ {t}, Routine s t → Routine s (onDeny t)) (hu : Routine s u) (j k b : BitVec 3) (y : BitVec 15)
    (v : Word) :
    Yields (if k = 0#3 then endNormal j (f (captureUnused b y s)) else if k = 4#3 then endNormal j (g (captureUnused b y s))
      else (storeOperand k b y v onDeny u).andThen fun _ t => endNormal j t) (Ends s) :=
  .ite (fun _ => (hf (Routine.captureUnused .refl b y)).endNormal j) fun _ =>
    .ite (fun _ => (hg (Routine.captureUnused .refl b y)).endNormal j) fun _ =>
      (hu.storeOperand k b y v hd).andThen fun _ _ h => h.endNormal j

theorem storeResult_ends (r : Word) (j k b : BitVec 3) (y : BitVec 15) : Yields (storeResult r j k b y s) (Ends s) :=
  storeClass_ends (fun t => (t.setA r).setQ r) (fun t => t.setA r) (fun h => (h.setA r).setQ r) (fun h => h.setA r)
    (fun h => h.eitherA s.a) (Routine.setA .refl r) j k b y r

theorem divideBy_ends (h : Routine s t) (j : BitVec 3) (v : Word) : Yields (divideBy j v t) (Ends s) :=
  .ite (fun _ => (((h.setQ _).setA _).skipIf _).next) fun _ =>
    .ite (fun _ => ((h.setQ _).freeA.spend.skipIf _).next) fun _ =>
      .ite (fun _ => (h.freeAq.skipIf _).next) fun _ => (((h.setQ _).setA _).skipIf _).next

theorem decimalCompare_ends (test : DWord → DWord → Bool) (b : BitVec 3) (y : BitVec 15) :
    Yields (decimalCompare test b y s) (Ends s) :=
  (Routine.readDouble .refl b y).andThen fun _ _ h => .ite (fun _ => (h.skipIf _).next) fun _ => (h.skipIf _).spend.next

theorem decimalAddition_ends (subtract multi : Bool) (b : BitVec 3) (y : BitVec 15) :
    Yields (decimalAddition subtract multi b y s) (Ends s) := by
  have flag : ∀ {t} (v : Bool), Routine s t → Routine s (if subtract then setBorrow v t else setCarry v t) :=
    fun v h => .ite (h.setBorrow v) (h.setCarry v)
  exact (Routine.readDouble .refl b y).andThen fun _ _ h =>
    .ite (fun _ => ((flag _ h).setAq _).next) fun _ => ((flag _ h).spend.freeDecimal false).next

theorem decimalConvert_ends (digit : Word → Nat) (clear : Word → Bool) (b : BitVec 3) (y : BitVec 15) :
    Yields (decimalConvert digit clear b y s) (Ends s) :=
  (Routine.readWords _ 5 0 (Routine.operandAddr .refl true b y)).andThen fun _ _ h =>
    .ite (fun _ => (h.setAq _).next) fun _ => h.freeAq.next

theorem fpResult_ends (h : Routine s t) (neg : Bool) (mag : Nat) (exp2 : Int) (sticky : Bool) :
    Yields (fpResult neg mag exp2 sticky t) (Ends s) :=
  .ite (fun _ => (h.setAq _).next) fun _ => .ite (fun _ => h.freeAq.raise _ _) fun _ =>
    .ite (fun _ => h.freeAq.raise _ _) fun _ => (h.setAq _).next

theorem execFpMultiply_ends (b : BitVec 3) (y : BitVec 15) : Yields (execFpMultiply b y s) (Ends s) :=
  (Routine.readDouble .refl b y).andThen fun _ _ h => .ite (fun _ => fpResult_ends h _ _ _ _) fun _ => h.freeAq.next

theorem execFpDivide_ends (b : BitVec 3) (y : BitVec 15) : Yields (execFpDivide b y s) (Ends s) :=
  (Routine.readDouble .refl b y).andThen fun _ _ h => .ite (fun _ => h.freeAq.raise _ _) fun _ =>
    .ite (fun _ => fpResult_ends h _ _ _ _) fun _ => h.freeAq.next

theorem execFpPack_ends (b : BitVec 3) (y : BitVec 15) : Yields (execFpPack b y s) (Ends s) :=
  (Routine.readWord .refl b y).andThen fun _ _ h => .ite (fun _ => (h.setAq _).next) fun _ =>
    .ite (fun _ => (h.setAq _).next) fun _ => h.freeAq.next

theorem execFpUnpack_ends (b : BitVec 3) (y : BitVec 15) : Yields (execFpUnpack b y s) (Ends s) :=
  have h := (Routine.operandAddr .refl true b y).setAq _
  (h.writeAt _ _ _ _ _ (h.eitherAq _)).andThen fun _ _ h1 => h1.next

theorem execDecimalComplement_ends (b : BitVec 3) (y : BitVec 15) : Yields (execDecimalComplement b y s) (Ends s) := by
  unfold execDecimalComplement
  exact (Routine.dataOperand .refl true b y).andThen fun _ _ h =>
    .ite (fun _ => (h.setAq _).next) fun _ => (h.freeDecimal true).next

theorem execDecimalTest_ends (b : BitVec 3) (y : BitVec 15) : Yields (execDecimalTest b y s) (Ends s) := by
  unfold execDecimalTest
  exact (Routine.dataOperand .refl true b y).andThen fun _ _ h => (h.skipIf _).next

/-- Successive words are stored. -/
theorem storeWords_ends (p : Part) (ws : List Word) (b : BitVec 3) (y : BitVec 15) :
    Yields ((writeWords (operandAddr true b y s).1 p 0 ws (operandAddr true b y s).2).andThen fun _ t => .next t) (Ends s) :=
  (Routine.writeWords _ p ws 0 (Routine.operandAddr .refl true b y)).andThen fun _ _ h => h.next

theorem execEnterB_ends (j k b : BitVec 3) (y : BitVec 15) : Yields (execEnterB j k b y s) (Ends s) :=
  .ite (fun _ => (Routine.captureUnused .refl b y).next) fun _ =>
    ((Routine.spendHazard .refl).readOperand true k b y).andThen fun _ _ h => (h.bWriteIn _ _ _).next

theorem execStoreB_ends (j k b : BitVec 3) (y : BitVec 15) : Yields (execStoreB j k b y s) (Ends s) :=
  have h := Routine.operandAddr .refl true b y
  .ite (fun _ => ((Routine.captureUnused .refl b y).setQ _).next) fun _ =>
    .ite (fun _ => ((Routine.captureUnused .refl b y).setA _).next) fun _ =>
      (h.writeAt _ _ _ _ _ h).andThen fun _ _ h1 => h1.next

theorem execEnterAq_ends (b : BitVec 3) (y : BitVec 15) : Yields (execEnterAq b y s) (Ends s) :=
  ((Routine.operandAddr .refl true b y).readAt _ _ _).andThen fun w0 _ h0 =>
    ((h0.setA w0).readAt _ _ _).andThen fun w1 _ h1 => (h1.setQ w1).next

theorem execRepeatInstr_ends (j k b : BitVec 3) (y : BitVec 15) : Yields (execRepeatInstr j k b y s) (Ends s) :=
  ((Routine.spendHazard .refl).readOperand true k b y).andThen fun _ _ h =>
    .ite (fun _ => ((h.bWritePhysical _ _ _).setPc _).next) fun _ => ((h.bWritePhysical _ _ _).setRep _).next

theorem execBSkip_ends (j k b : BitVec 3) (y : BitVec 15) : Yields (execBSkip j k b y s) (Ends s) :=
  ((Routine.spendHazard .refl).readOperand true k b y).andThen fun _ _ h => .ite (fun _ => (h.skipIf _).next) fun _ =>
    .ite (fun _ => ((h.bWriteIn _ _ _).skipIf _).next) fun _ => (h.bWriteIn _ _ _).next

theorem execBJump_ends (j k b : BitVec 3) (y : BitVec 15) : Yields (execBJump j k b y s) (Ends s) :=
  .ite (fun _ => (Routine.capture .refl _).next) fun _ =>
    ((Routine.spendHazard .refl).jumpOperand k b y).andThen fun _ _ h =>
      .ite (fun _ => h.next) fun _ => (h.bWriteIn _ _ _).jumpTo _ _ (fun h' => h'.eitherB _ _) id

theorem execTestAndSet_ends (b : BitVec 3) (y : BitVec 15) : Yields (execTestAndSet b y s) (Ends s) :=
  ((Routine.operandAddr .refl true b y).readAt _ _ _).andThen fun _ _ h =>
    .ite (fun _ => h.raise _ _) fun _ => (h.writeAt _ _ _ _ _ h).andThen fun _ _ h1 => h1.next

theorem execJumpManual_ends (j k b : BitVec 3) (y : BitVec 15) : Yields (execJumpManual j k b y s) (Ends s) :=
  (Routine.jumpOperand .refl k b y).andThen fun _ _ h =>
    .ite (fun _ => h.jumpTo _ _ id (fun h' => h'.stopIf j)) fun _ => h.next

theorem execReturnJumpManual_ends (j k b : BitVec 3) (y : BitVec 15) : Yields (execReturnJumpManual j k b y s) (Ends s) :=
  (Routine.jumpOperand .refl k b y).andThen fun _ _ h =>
    .ite (fun _ => h.returnJump _ _ (fun h' => h'.stopIf j)) fun _ => h.next

theorem enterBJump_ends (g b : BitVec 3) (y : BitVec 15) : Yields (enterBJump g b y s) (Ends s) :=
  ((Routine.capture .refl _).bWritePhysical _ _ _).jumpTo _ _ (fun h => h.eitherB _ _) id

theorem noOperation_ends (b : BitVec 3) (y : BitVec 15) : Yields (noOperation b y s) (Ends s) := (Routine.captureUnused .refl b y).next

/-! ## Privileged meanings -/

/-- A property of every end of an instruction holds after the guard mode trap. -/
theorem privileged_yields {q : State → Prop} {o : Result} (hq : ∀ t, Ends s t → q t) (h : Yields o q) : Yields (privileged s o) q :=
  .ite (fun _ => (Routine.raise .refl _ _).imp hq) fun _ => h

theorem privileged_ends {o : Result} (h : Yields o (Ends s)) : Yields (privileged s o) (Ends s) := privileged_yields (fun _ e => e) h

theorem plainJHat_yields {q : State → Prop} (jh : BitVec 4) {o : Result} (h : Yields o q) : Yields (plainJHat jh o) q :=
  .ite (fun _ => h) fun _ => .refused _

theorem fitted_of_channelOf {cfg : Config} {n : BitVec 5} {c : Fin 24} (h : channelOf cfg n = some c) : fitted cfg c = true := by
  unfold channelOf at h
  split at h
  · split at h
    · obtain rfl := Option.some.inj h
      assumption
    · cases h
  · cases h

/-- What is done with the channel an instruction names is done with a fitted one. -/
theorem withChannel_yields {q : State → Prop} (n : BitVec 5) {k : Fin 24 → State → Result}
    (hk : ∀ c, fitted t.cfg c = true → Yields (k c t) q) : Yields ((withChannel n t).andThen k) q := by
  unfold withChannel
  split
  · exact hk _ (fitted_of_channelOf ‹_›)
  · exact .fault _

theorem execSendExternalFunction_ends (jh : BitVec 4) (kh : BitVec 2) (b : BitVec 3) (y : BitVec 15) :
    Yields (execSendExternalFunction jh kh b y s) (Ends s) := by
  refine privileged_ends (plainJHat_yields jh ?_)
  split
  · exact (Routine.readWord .refl b y).andThen fun _ _ h => withChannel_yields _ fun _ _ => (h.emit _).next
  · exact (Routine.dataOperand .refl true b y).andThen fun _ _ h =>
      (Routine.ite ((Routine.ite (h.emit _) h).emit _) (.ite (h.emit _) h)).next
  · exact (Routine.captureUnused .refl b y).next

theorem jumpActive_ends (active : Channel → Bool) (jh : BitVec 4) (kh : BitVec 2) (b : BitVec 3) (y : BitVec 15) :
    Yields (jumpActive active jh kh b y s) (Ends s) :=
  privileged_ends <| plainJHat_yields jh <| (Routine.channelJumpOperand .refl kh b y).andThen fun _ _ h =>
    withChannel_yields _ fun _ _ => .ite (fun _ => h.jumpTo _ _ id id) fun _ => h.next

theorem execInitiateSyncInterrupt_ends (b : BitVec 3) (y : BitVec 15) : Yields (execInitiateSyncInterrupt b y s) (Ends s) :=
  privileged_ends <| (Routine.dataOperand .refl true b y).andThen fun _ _ h =>
    (Routine.ite ((Routine.ite (h.emit _) h).emit _) (.ite (h.emit _) h)).next

theorem execStoreIfr_ends (b : BitVec 3) (y : BitVec 15) : Yields (execStoreIfr b y s) (Ends s) :=
  have h := Routine.operandAddr .refl true b y
  privileged_ends <| (h.writeAt _ _ _ _ _ h).andThen fun _ _ h1 => h1.next

/-! ## Special acts -/

/-- An act that only the named instruction makes; the channels' flags are written by several, none of which may be repeated. -/
inductive Special : Instr → State → State → Prop
  | releaseLockout (j k b : BitVec 3) (y : BitVec 15) (s : State) : Special (.jumpArithmetic j k b y) s (releaseLockout s)
  | setLockout (j k b : BitVec 3) (y : BitVec 15) (s : State) : Special (.returnJumpArithmetic j k b y) s (setLockout s)
  | loadIfrRir (b : BitVec 3) (y : BitVec 15) (w0 w1 : Word) (s : State) : Special (.enterIfrRir b y) s (loadIfrRir w0 w1 s)
  | loadRir (b : BitVec 3) (y : BitVec 15) (v : BitVec 11) (s : State) :
      Special (.enterRir b y) s (s.setCtl { s.ctl with rirIV := v, rirActive := true })
  | setCsr (b : BitVec 3) (y : BitVec 15) (v : BitVec 5) (s : State) : Special (.enterCsr b y) s (s.setSel { s.sel with csr := v })
  | goRemote (b : BitVec 3) (y : BitVec 15) (a : Addr) (s : State) : Special (.executeRemote b y) s (s.setFetch (.remote a))
  | putChan {i : Instr} (hi : repeatFields i = none) {c : Fin 24} {s : State} (hc : fitted s.cfg c = true) (v : Channel) :
      Special i s (putChan c v s)

theorem Special.not_repeated {i : Instr} (h : Special i s t) : repeatFields i = none := by
  cases h with
  | putChan hi => exact hi
  | _ => rfl

/-- Everything an instruction can do: a chain of updates with at most one special act in it, and then perhaps an unconditional
interrupt. -/
inductive Runs (i : Instr) (s : State) : State → Prop
  | plain {t : State} (e : Ends s t) : Runs i s t
  | special {u v t : State} (h : Routine s u) (a : Special i u v) (e : Ends v t) : Runs i s t

theorem Runs.of_routine {i : Instr} (h : Routine s t) (r : Runs i t u) : Runs i s u := by
  cases r with
  | plain e => exact .plain (e.of_routine h)
  | special h' a e => exact .special (h.trans h') a e

variable {i : Instr}

theorem Yields.runs {o : Result} (h : Yields o (Ends s)) : Yields o (Runs i s) := h.imp fun _ => .plain

theorem Special.runs (a : Special i t u) (h : Routine s t) : Yields (.next u) (Runs i s) := .next (.special h a (.done .refl))

theorem Proceeds.andRuns {α : Type} {r : Res α} {k : α → State → Result} (h : Proceeds s r)
    (hk : ∀ v t, Routine s t → Yields (k v t) (Runs i s)) : Yields (r.andThen k) (Runs i s) := h.yields (fun _ => .plain) hk

/-- A special act is made on a condition, and what follows ends the instruction. -/
theorem optionalAct_runs {c : Prop} [Decidable c] {k : State → Result} (hk : ∀ v, Yields (k v) (Ends v)) (h : Routine s t)
    (a : Special i t u) : Yields (k (if c then u else t)) (Runs i s) := by
  split
  · exact (hk u).imp fun _ => .special h a
  · exact (hk t).imp fun _ e => .plain (e.of_routine h)

theorem execJumpArithmetic_runs (j k b : BitVec 3) (y : BitVec 15) :
    Yields (execJumpArithmetic j k b y s) (Runs (.jumpArithmetic j k b y) s) :=
  .ite (fun _ => (Special.releaseLockout j k b y _).runs (Routine.capture .refl _)) fun _ =>
    (Routine.jumpOperand .refl k b y).andRuns fun v t h =>
      optionalAct_runs (k := fun u => if jumpCond j u then jumpTo b (jumpRel k v t) id id u else .next u)
        (fun _ => .ite (fun _ => Routine.jumpTo .refl _ _ id id) fun _ => Routine.next .refl) h (.releaseLockout j k b y t)

theorem execReturnJumpArithmetic_runs (j k b : BitVec 3) (y : BitVec 15) :
    Yields (execReturnJumpArithmetic j k b y s) (Runs (.returnJumpArithmetic j k b y) s) :=
  .ite (fun _ => (Special.setLockout j k b y _).runs (Routine.capture .refl _)) fun _ =>
    (Routine.jumpOperand .refl k b y).andRuns fun v t h =>
      optionalAct_runs (k := fun u => if jumpCond j u then returnJump b ((lowerHalf v).setWidth 17) id u else .next u)
        (fun _ => .ite (fun _ => Routine.returnJump .refl _ _ id) fun _ => Routine.next .refl) h (.setLockout j k b y t)

theorem execExecuteRemote_runs (b : BitVec 3) (y : BitVec 15) : Yields (execExecuteRemote b y s) (Runs (.executeRemote b y) s) :=
  have h := (Routine.capture .refl s.pc).convert b (effective b y (capture s.pc s))
  .ite (fun _ => (h.protection _ _).runs) fun _ => (Special.goRemote b y _ _).runs h

theorem execEnterIfrRir_runs (b : BitVec 3) (y : BitVec 15) : Yields (execEnterIfrRir b y s) (Runs (.enterIfrRir b y) s) :=
  privileged_yields (fun _ => .plain) <| ((Routine.operandAddr .refl true b y).readAt _ _ _).andRuns fun _ _ h0 =>
    (h0.readAt _ _ _).andRuns fun _ _ h1 => (Special.loadIfrRir b y _ _ _).runs h1

theorem execEnterRir_runs (b : BitVec 3) (y : BitVec 15) : Yields (execEnterRir b y s) (Runs (.enterRir b y) s) :=
  privileged_yields (fun _ => .plain) <| (Routine.readWord .refl b y).andRuns fun _ _ h => (Special.loadRir b y _ _).runs h

theorem execEnterCsr_runs (b : BitVec 3) (y : BitVec 15) : Yields (execEnterCsr b y s) (Runs (.enterCsr b y) s) :=
  privileged_yields (fun _ => .plain) <| (Routine.readWord .refl b y).andRuns fun _ _ h => (Special.setCsr b y _ _).runs h

theorem execStoreChannel_runs (jh : BitVec 4) (kh : BitVec 2) (b : BitVec 3) (y : BitVec 15) :
    Yields (execStoreChannel jh kh b y s) (Runs (.storeChannel jh kh b y) s) := by
  refine privileged_yields (fun _ => .plain) (plainJHat_yields jh ?_)
  split
  · exact withChannel_yields _ fun c hc => (Routine.storeWhole .refl b y _).andRuns fun _ t h =>
      .next (.special h (.putChan rfl (h.cfg ▸ hc) _) (.done (Routine.emit .refl _)))
  · exact (Routine.captureUnused .refl b y).next.runs

theorem execTerminateInput_runs (jh : BitVec 4) (kh : BitVec 2) (b : BitVec 3) (y : BitVec 15) :
    Yields (execTerminateInput jh kh b y s) (Runs (.terminateInput jh kh b y) s) :=
  privileged_yields (fun _ => .plain) <| plainJHat_yields jh <| .ite
    (fun _ => withChannel_yields _ fun _ hc => (Special.putChan rfl hc _).runs (Routine.captureUnused .refl b y)) fun _ => .refused _

theorem execTerminateOutput_runs (jh : BitVec 4) (kh : BitVec 2) (b : BitVec 3) (y : BitVec 15) :
    Yields (execTerminateOutput jh kh b y s) (Runs (.terminateOutput jh kh b y) s) :=
  privileged_yields (fun _ => .plain) <| plainJHat_yields jh <| .ite (fun _ => (Routine.captureUnused .refl b y).next.runs) fun _ =>
    withChannel_yields _ fun _ hc => (Special.putChan rfl hc _).runs (Routine.captureUnused .refl b y)

theorem activateIn_runs (hi : repeatFields i = none) (monitor : Bool) (kh : BitVec 2) (b : BitVec 3) (y : BitVec 15) :
    Yields (activateIn monitor kh b y s) (Runs i s) :=
  privileged_yields (fun _ => .plain) <| withChannel_yields _ fun c hc => (Routine.loadBcw .refl kh (inputBcr c) b y).andRuns
    fun _ _ h => (Special.putChan hi (h.cfg ▸ hc) _).runs h

theorem activateOut_runs (hi : repeatFields i = none) (monitor : Bool) (jh : BitVec 4) (kh : BitVec 2) (b : BitVec 3) (y : BitVec 15) :
    Yields (activateOut monitor jh kh b y s) (Runs i s) :=
  privileged_yields (fun _ => .plain) <| withChannel_yields _ fun c hc => (Routine.loadBcw .refl kh (outputBcr c) b y).andRuns
    fun _ _ h => (Special.putChan hi (h.cfg ▸ hc) _).runs h

/-! ## The dispatch -/

/-- A meaning that may be refused for its k designator. -/
theorem notSevenK_ends {k : BitVec 3} {o : Result} (h : Yields o (Ends s)) :
    Yields (if notSevenK k then o else .refused .forbiddenDesignator) (Ends s) :=
  .ite (fun _ => h) fun _ => .refused _

/-- Everything an instruction can do. -/
theorem exec_runs (i : Instr) (s : State) : Yields (exec i s) (Runs i s) := by
  cases i with
  | jumpArithmetic j k b y => exact execJumpArithmetic_runs j k b y
  | returnJumpArithmetic j k b y => exact execReturnJumpArithmetic_runs j k b y
  | executeRemote b y => exact execExecuteRemote_runs b y
  | enterIfrRir b y => exact execEnterIfrRir_runs b y
  | enterRir b y => exact execEnterRir_runs b y
  | enterCsr b y => exact execEnterCsr_runs b y
  | storeChannel jh kh b y => exact execStoreChannel_runs jh kh b y
  | terminateInput jh kh b y => exact execTerminateInput_runs jh kh b y
  | terminateOutput jh kh b y => exact execTerminateOutput_runs jh kh b y
  | activateInput _ kh b y => exact activateIn_runs rfl false kh b y
  | activateInputMonitor _ kh b y => exact activateIn_runs rfl true kh b y
  | activateOutput jh kh b y => exact activateOut_runs rfl false jh kh b y
  | activateOutputMonitor jh kh b y => exact activateOut_runs rfl true jh kh b y
  | illegal00 | illegal7700 => exact (Routine.raise .refl _ _).runs
  | rightShiftQ j k b y | leftShiftQ j k b y => exact (shiftNormal_ends _ (fun _ _ h => h.setQ _) j k b y).runs
  | rightShiftA j k b y | leftShiftA j k b y => exact (shiftNormal_ends _ (fun _ _ h => h.setA _) j k b y).runs
  | rightShiftAq j k b y | leftShiftAq j k b y => exact (shiftNormal_ends _ (fun _ _ h => h.setAq _) j k b y).runs
  | logicalRightShiftQ b y => exact (shiftLogical_ends _ (fun _ _ h => h.setQ _) b y).runs
  | logicalRightShiftA b y => exact (shiftLogical_ends _ (fun _ _ h => h.setA _) b y).runs
  | logicalRightShiftAq b y => exact (shiftLogical_ends _ (fun _ _ h => h.setAq _) b y).runs
  | scaleFactorShift b y => exact (((Routine.captureUnused .refl b y).setA _).setQ _).next.runs
  | compare j k b y => exact (readThenSkip_ends (fun _ t => t) (fun _ _ h => h) (skipCompare j) k b y).runs
  | compareMasked j k b y =>
    exact (readThenSkip_ends (fun _ t => t) (fun _ _ h => h) (fun v t => skipMasked j (onesSub t.a (v &&& t.q)) t) k b y).runs
  | enterQ j k b y => exact (readThenSkip_ends _ (fun _ _ h => h.setQ _) _ k b y).runs
  | enterA j k b y | addA j k b y | subtractA j k b y | enterYPlusQ j k b y | enterYMinusQ j k b y | addLp j k b y
  | subtractLp j k b y =>
    exact ((Routine.readOperand .refl true k b y).andThen fun _ _ h => (h.setA _).endNormal j).runs
  | selectiveComplement j k b y => exact (selective_ends _ j k b y).runs
  | selectiveSet j k b y | selectiveClear j k b y | selectiveSubstitute j k b y =>
    exact (notSevenK_ends (selective_ends _ j k b y)).runs
  | multiply j k b y => exact (readThenSkip_ends _ (fun _ _ h => h.setAq _) _ k b y).runs
  | divide j k b y => exact (notSevenK_ends ((Routine.readOperand .refl true k b y).andThen fun v _ h => divideBy_ends h j v)).runs
  | addQ j k b y | subtractQ j k b y =>
    exact ((Routine.readOperand .refl true k b y).andThen fun _ _ h => ((h.setQ _).skipIf _).next).runs
  | enterLp j k b y => exact ((Routine.readOperand .refl true k b y).andThen fun _ _ h => ((h.setA _).skipIf _).next).runs
  | replaceAPlusY j k b y | replaceAMinusY j k b y | replaceYPlusQ j k b y | replaceYMinusQ j k b y | replaceYPlus1 j k b y
  | replaceYMinus1 j k b y | replaceAPlusLp j k b y | replaceAMinusLp j k b y | replaceSelectiveSet j k b y
  | replaceSelectiveComplement j k b y | replaceSelectiveClear j k b y | replaceSelectiveSubstitute j k b y =>
    exact (replaceNormal_ends _ j k b y).runs
  | replaceLp j k b y => exact ((Routine.replaceOperand .refl k b y _).andThen fun _ _ h => (h.skipIf _).next).runs
  | storeQ j k b y =>
    exact (storeClass_ends (fun t => t.setQ (~~~t.q)) (fun t => t.setA t.q) (fun h => h.setQ _) (fun h => h.setA _) id .refl j k b y _).runs
  | storeA j k b y =>
    exact (storeClass_ends (fun t => t.setQ t.a) (fun t => t.setA (~~~t.a)) (fun h => h.setQ _) (fun h => h.setA _) id .refl j k b y _).runs
  | storeLp j k b y =>
    exact (Yields.ite (fun _ => .refused _) fun _ => storeClass_ends (fun t => t.setQ (t.a &&& t.q)) (fun t => t.setA (t.a &&& t.q))
      (fun h => h.setQ _) (fun h => h.setA _) id .refl j k b y _).runs
  | storeAPlusQ j k b y | storeAMinusQ j k b y => exact (storeResult_ends _ j k b y).runs
  | enterB j k b y => exact (execEnterB_ends j k b y).runs
  | storeB j k b y => exact (execStoreB_ends j k b y).runs
  | repeatInstr j k b y => exact (execRepeatInstr_ends j k b y).runs
  | bSkip j k b y => exact (execBSkip_ends j k b y).runs
  | bJump j k b y => exact (execBJump_ends j k b y).runs
  | jumpManual j k b y => exact (execJumpManual_ends j k b y).runs
  | returnJumpManual j k b y => exact (execReturnJumpManual_ends j k b y).runs
  | enterB0Jump b y => exact ((Routine.capture .refl _).jumpTo _ _ id id).runs
  | enterB1Jump b y | enterB2Jump b y | enterB3Jump b y | enterB4Jump b y | enterB5Jump b y | enterB6Jump b y | enterB7Jump b y =>
    exact (enterBJump_ends _ b y).runs
  | jumpActiveInput jh kh b y | jumpActiveOutput jh kh b y => exact (jumpActive_ends _ jh kh b y).runs
  | sendExternalFunction jh kh b y => exact (execSendExternalFunction_ends jh kh b y).runs
  | fpAdd b y | fpSubtract b y => exact ((Routine.readDouble .refl b y).andThen fun _ _ h => fpResult_ends h _ _ _ _).runs
  | fpMultiply b y => exact (execFpMultiply_ends b y).runs
  | fpDivide b y => exact (execFpDivide_ends b y).runs
  | fpPack b y => exact (execFpPack_ends b y).runs
  | fpUnpack b y => exact (execFpUnpack_ends b y).runs
  | decimalTest b y => exact (execDecimalTest_ends b y).runs
  | decimalAdd b y | decimalSubtract b y | decimalAddCarry b y | decimalSubtractBorrow b y =>
    exact (decimalAddition_ends _ _ b y).runs
  | decimalCompareEqual b y => exact Yields.runs (o := execDecimalCompareEqual b y s) (decimalCompare_ends _ b y)
  | decimalCompareLess b y => exact Yields.runs (o := execDecimalCompareLess b y s) (decimalCompare_ends _ b y)
  | decimalComplement b y =>
    exact (execDecimalComplement_ends b y).runs
  | decimalConvertLower b y | decimalConvertUpper b y => exact (decimalConvert_ends _ _ b y).runs
  | enterAq b y => exact (execEnterAq_ends b y).runs
  | addAq b y | subtractAq b y => exact ((Routine.readDouble .refl b y).andThen fun _ _ h => (h.setAq _).next).runs
  | compareAqEqual b y | compareAqLess b y => exact ((Routine.readDouble .refl b y).andThen fun _ _ h => (h.skipIf _).next).runs
  | complementAq b y => exact (((Routine.captureUnused .refl b y).setA _).setQ _).next.runs
  | storeAq b y | storeBWorker b y | charUnpackLower b y | charUnpackUpper b y => exact (storeWords_ends _ _ b y).runs
  | charPackLower b y | charPackUpper b y =>
    exact (Routine.enterWords _ (fun _ _ _ h => h.setA _) _ 5 0 (Routine.operandAddr .refl true b y)).runs
  | enterBWorker b y =>
    exact (Routine.enterWords _ (fun _ _ _ h => h.setBWork _) _ 7 0 (Routine.operandAddr .refl true b y)).runs
  | testAndSet b y => exact (execTestAndSet_ends b y).runs
  | maskedAlphaEqual b y | maskedAlphaLess b y => exact ((Routine.readWord .refl b y).andThen fun _ _ h => (h.skipIf _).next).runs
  | executiveReturn b y => exact ((Routine.dataOperand .refl true b y).andThen fun _ _ h => h.raise _ _).runs
  | loadPlr b y => exact (privileged_ends ((Routine.readWord .refl b y).andThen fun _ _ h => (h.setPlr _ _).next)).runs
  | storeIfr b y => exact (execStoreIfr_ends b y).runs
  | initiateSyncInterrupt b y => exact (execInitiateSyncInterrupt_ends b y).runs
  | storeChannelNumber b y => exact (privileged_ends ((Routine.storeWhole .refl b y _).andThen fun _ _ h => h.next)).runs
  | unassigned7704 b y | unassigned7720 b y | unassigned7750 b y => exact (noOperation_ends b y).runs
  | unassigned7760 b y | unassigned7763 b y | unassigned7764 b y | unassigned7767 b y | unassigned7774 b y | unassigned7776 b y
  | unassigned7777 b y => exact (privileged_ends (noOperation_ends b y)).runs

end Sys2Proof.Machine
end

section
/-! A step of the CPU: an instruction in or out of sequence, an execution of a repeated one, or an interrupt taken between two. -/

namespace Sys2Proof.Machine

open Sys2Proof

variable {s t : State}

/-! ## Interrupts between instructions -/

theorem bestPending_mem : ∀ {l : List CondInt} {x : CondInt}, bestPending l = some x → x ∈ l
  | y :: rest, x, h => by
    unfold bestPending at h
    split at h
    · obtain rfl := Option.some.inj h
      exact List.mem_cons_self
    · rename_i z hz
      split at h
      · obtain rfl := Option.some.inj h
        exact List.mem_cons_self
      · obtain rfl := Option.some.inj h
        exact List.mem_cons_of_mem _ (bestPending_mem hz)

theorem dueInterrupt_mem {x : CondInt} (h : dueInterrupt s = some x) : x ∈ s.pending := by
  unfold dueInterrupt at h
  split at h
  · exact bestPending_mem h
  · cases h

/-! ## What a step of the CPU can do -/

/-- Everything a step of the CPU can do. -/
inductive CpuStep (s : State) : State → Prop
  /-- Nothing but updates, or an unconditional interrupt before an instruction runs. -/
  | ends {t : State} (e : Ends s t) : CpuStep s t
  /-- A conditional interrupt is taken. -/
  | taken {x : CondInt} (hx : x ∈ s.pending) : CpuStep s (enter (.cond x) none (s.setPending (s.pending.erase x)))
  /-- An instruction ends in an interrupt or names an Execute Remote target. -/
  | diverted {i : Instr} {u t : State} (h : Routine s u) (r : Runs i (u.setFetch .program) t) (hf : t.fetch ≠ .program) : CpuStep s t
  /-- An instruction completes. -/
  | completed {i : Instr} {u v : State} (h : Routine s u) (r : Runs i (u.setFetch .program) v) (hf : v.fetch = .program) :
      CpuStep s (closeEntry (settleIfr v))
  /-- A repeated instruction is executed. -/
  | repeated {i : Instr} {v t : State} (hi : repeatFields i ≠ none) (r : Runs i s v) (h : Routine v t) : CpuStep s t

theorem Routine.runInstr (h : Routine s t) (i : Instr) : Yields (runInstr i t) (CpuStep s) := by
  unfold Machine.runInstr
  generalize ho : exec i _ = o
  cases o with
  | next v =>
    have r := (exec_runs _ _ v ho).of_routine (Routine.setOverlap .refl [])
    exact .ite (fun hf => .next (.diverted h r hf)) fun hf => .ite (fun _ => .fault _) fun _ =>
      .next (.completed h r (not_not.mp hf))
  | fault r => exact .fault r
  | refused r => exact .refused r

theorem Routine.fetchedWord (h : Routine s t) (a : Addr) (w : Word) : Routine s (fetchedWord a w t).2 := by
  unfold Machine.fetchedWord
  split
  · split
    · exact h
    · exact h.spend
  · exact h

/-- An operation before an instruction that goes on with a step of the CPU. -/
theorem Proceeds.andStep {α : Type} {r : Res α} {k : α → State → Result} (h : Proceeds s r)
    (hk : ∀ v t, Routine s t → Yields (k v t) (CpuStep s)) : Yields (r.andThen k) (CpuStep s) := h.yields (fun _ => .ends) hk

theorem runProgram_step (s : State) : Yields (runProgram s) (CpuStep s) :=
  ((Routine.setPc .refl _).cpuRead _).andStep fun w _ h => (h.fetchedWord s.pc w).runInstr _

theorem runFixed_step (n : BitVec 15) (s : State) : Yields (runFixed n s) (CpuStep s) :=
  (Routine.cpuRead .refl _).andStep fun _ _ h => h.runInstr _

theorem runRemote_step (a : Addr) (s : State) : Yields (runRemote a s) (CpuStep s) :=
  (Routine.cpuRead .refl _).andStep fun _ _ h => .ite (fun _ => h.runInstr _) fun _ => .fault _

/-! ## Repeat -/

/-- The operand steps within its width, or wraps by a free choice. -/
theorem Routine.stepOrWrap (h : Routine s t) {c : Prop} [Decidable c] (r : Addr) (modulo around : Nat) :
    Routine s (if c then (r, t) else wrapChoice modulo around t).2 := by
  split
  · exact h
  · exact h.spend

theorem Routine.stepYbar (h : Routine s t) (b : BitVec 3) : Routine s (stepYbar b t).2 := by
  unfold Machine.stepYbar
  simp only []
  split
  · exact h
  all_goals exact h.stepOrWrap _ _ _

theorem Routine.afterRepeated (h : Routine s t) (p : Addr) (b : BitVec 3) : Routine s (afterRepeated p b t) := by
  unfold Machine.afterRepeated
  simp only []
  have h2 := (h.bWritePhysical (bView t) 7#3 (repeatCountLeft t - 1)).stepYbar b
  generalize Machine.stepYbar b _ = stepped at h2 ⊢
  have h3 := h2.setRep { stepped.2.rep with ybar := stepped.1 }
  split
  · split
    · exact h3.setRep _
    · exact .ite ((h3.setPc p).setRep _) (h3.setPc p)
  · exact .ite (h3.setRep _) h3

theorem Routine.repeatOnce (h : Routine s t) {i : Instr} (hi : repeatFields i ≠ none) (b : BitVec 3) (y : BitVec 15) :
    Yields (repeatOnce i b y t) (CpuStep s) := by
  have h1 : ∀ {c : Bool} {r : RepeatState}, Routine s (if c then t.setRep r else t) := .ite (h.setRep _) h
  unfold Machine.repeatOnce
  refine .ite (fun _ => .next (.ends (.done (h1.setRep _)))) fun _ => ?_
  generalize ho : exec i _ = o
  cases o with
  | next v =>
    have r := (exec_runs _ _ v ho).of_routine (h1.setOverlap [])
    exact .ite (fun _ => .next (.repeated hi r .refl)) fun _ => .next (.repeated hi r (Routine.afterRepeated .refl _ b))
  | fault r => exact .fault r
  | refused r => exact .refused r

theorem runRepeat_step (s : State) : Yields (runRepeat s) (CpuStep s) := by
  unfold runRepeat
  split
  · split
    · rename_i hi
      exact Routine.repeatOnce .refl (hi ▸ Option.some_ne_none _) _ _
    · exact Routine.runInstr (.setRep .refl _) _
  · refine (Routine.cpuRead .refl _).andStep fun w _ h => ?_
    have h2 := h.fetchedWord s.pc w
    simp only []
    split
    · rename_i hi
      exact ((h2.setPc _).setRep _).repeatOnce (hi ▸ Option.some_ne_none _) _ _
    · exact ((h2.setPc _).setRep _).runInstr _

/-! ## One step -/

theorem runNext_step (s : State) : Yields (runNext s) (CpuStep s) := .ite (fun _ => runRepeat_step s) fun _ => runProgram_step s

theorem cycle_step (defer : Bool) (s : State) : Yields (cycle defer s) (CpuStep s) := by
  refine .ite (fun _ => .next (.ends (.done .refl))) fun _ => ?_
  split
  · exact runFixed_step _ s
  · exact runRemote_step _ s
  · refine .ite (fun _ => (Routine.raise .refl _ _).imp fun _ => .ends) fun _ => ?_
    split
    · rename_i x hx
      exact .ite (fun _ => runNext_step s) fun _ => .next (.taken (dueInterrupt_mem hx))
    · exact runNext_step s

end Sys2Proof.Machine
end

section
/-! An event of the script as a chain of updates by the other agents, and the step of the machine. -/

namespace Sys2Proof.Machine

open Sys2Proof

/-! ## Elementary updates by other agents -/

/-- One elementary update by an agent other than the CPU. Requests and channel flags are of fitted channels. -/
inductive AgentUpdate : State → State → Prop
  | store {s : State} {a : Addr} (h : installed s a = true) (w : Word) (p : List Nat) (l : List (Addr × Word)) :
      AgentUpdate s (((s.setMem (s.mem.set a.toNat w)).setParity p).setOverlap l)
  | setParity (s : State) (p : List Nat) : AgentUpdate s (s.setParity p)
  | setClk (s : State) (v : Clocks) : AgentUpdate s (s.setClk v)
  | setPanel (s : State) (v : Panel) : AgentUpdate s (s.setPanel v)
  | setRun (s : State) (v : Bool) : AgentUpdate s (s.setRun v)
  | placeP (a : Addr) (s : State) : AgentUpdate s (placeP a s)
  | emit (x : Signal) (s : State) : AgentUpdate s (emit x s)
  | elapse (ns : Nat) (s : State) : AgentUpdate s (elapse ns s)
  | masterClear (s : State) : AgentUpdate s (masterClear s)
  | putChan {s : State} {c : Fin 24} (hc : fitted s.cfg c = true) (v : Channel) : AgentUpdate s (putChan c v s)
  | request {s : State} {x : CondInt} (hx : ∀ c, x.channel = some c → fitted s.cfg c = true) : AgentUpdate s (request x s)

/-- A chain of elementary updates by other agents. -/
abbrev AgentRun : State → State → Prop := Relation.ReflTransGen AgentUpdate

variable {s t : State} {c : Fin 24}

@[simp] theorem request_cfg (x : CondInt) (s : State) : (request x s).cfg = s.cfg := by unfold request; split <;> rfl

@[simp] theorem elapse_cfg (ns : Nat) (s : State) : (elapse ns s).cfg = s.cfg := by unfold elapse; split <;> rfl

theorem AgentUpdate.cfg (h : AgentUpdate s t) : t.cfg = s.cfg := by
  cases h with
  | elapse ns => exact elapse_cfg ns s
  | request => exact request_cfg _ s
  | _ => rfl

theorem AgentRun.cfg (h : AgentRun s t) : t.cfg = s.cfg :=
  chain_keeps (p := fun u => u.cfg = s.cfg) (fun hu e => hu.cfg.trans e) h rfl

theorem AgentRun.agentStore (h : AgentRun s t) {a : Addr} (hi : installed s a = true) (p : Part) (v : Word) :
    AgentRun s (agentStore a p v t) :=
  h.tail (.store (by rwa [installed, h.cfg]) _ _ _)

theorem AgentRun.emit (h : AgentRun s t) (x : Signal) : AgentRun s (emit x t) := h.tail (.emit x t)

theorem AgentRun.putChan (h : AgentRun s t) (hc : fitted s.cfg c = true) (v : Channel) : AgentRun s (putChan c v t) :=
  h.tail (.putChan (h.cfg ▸ hc) v)

theorem AgentRun.request (h : AgentRun s t) {x : CondInt} (hx : ∀ c, x.channel = some c → fitted s.cfg c = true) :
    AgentRun s (request x t) :=
  h.tail (.request (h.cfg ▸ hx))

/-- A request of a fitted channel. -/
theorem AgentRun.requestOn (h : AgentRun s t) (hc : fitted s.cfg c = true) {x : CondInt} (hx : x.channel = some c) :
    AgentRun s (Machine.request x t) :=
  h.request fun _ e => Option.some.inj (hx.symm.trans e) ▸ hc

/-- A request of no channel. -/
theorem AgentRun.requestAlone (h : AgentRun s t) {x : CondInt} (hx : x.channel = none) : AgentRun s (Machine.request x t) :=
  h.request fun _ e => by simp [hx] at e

theorem AgentRun.ite {p : Prop} [Decidable p] {u : State} (ht : AgentRun s t) (hu : AgentRun s u) : AgentRun s (if p then t else u) := by
  split
  · exact ht
  · exact hu

theorem AgentRun.requestIf (h : AgentRun s t) (hc : fitted s.cfg c = true) {x : CondInt} (hx : x.channel = some c) (p : Bool) :
    AgentRun s (if p then Machine.request x t else t) :=
  .ite (h.requestOn hc hx) h

theorem AgentRun.acknowledgeInput (h : AgentRun s t) (hc : fitted s.cfg c = true) : AgentRun s (acknowledgeInput c t) :=
  (h.putChan hc _).emit _

theorem AgentRun.sendWord (h : AgentRun s t) (hc : fitted s.cfg c = true) (x : Signal) : AgentRun s (sendWord x c t) :=
  (h.putChan hc _).emit _

/-! ## Channel transfers -/

theorem AgentRun.bcwParityError (hc : fitted s.cfg c = true) (input : Bool) {loc : Addr} (hi : installed s loc = true) :
    AgentRun s (bcwParityError input c loc s) := by
  have h1 : AgentRun s (dropOverlap loc ((s.setMem (s.mem.set loc.toNat 0)).setParity
      (spoilHalf (spoilHalf s.parity loc false) loc true))) := .single (.store hi 0 _ _)
  refine AgentRun.requestOn ?_ hc rfl
  cases input <;> cases channelMode s c
  · exact (h1.sendWord hc _).putChan hc _
  · exact h1.sendWord hc _
  · exact h1.putChan hc _
  · exact h1.acknowledgeInput hc

/-- After the last word of an input buffer its channel is deactivated, and the monitor interrupt requested. -/
theorem AgentRun.lastInput (h : AgentRun s t) (hc : fitted s.cfg c = true) {x : CondInt} (hx : x.channel = some c) (v : Channel)
    (done monitor : Bool) :
    Yields (if done then if monitor then .next (Machine.request x (Machine.putChan c v t)) else .next (Machine.putChan c v t) else .next t)
      (AgentRun s) :=
  .ite (fun _ => .ite (fun _ => .next ((h.putChan hc v).requestOn hc hx)) fun _ => .next (h.putChan hc v)) fun _ => .next h

theorem inputTransfer_run (hc : fitted s.cfg c = true) : Yields (inputTransfer c s) (AgentRun s) := by
  unfold inputTransfer
  refine .ite (fun _ => .fault _) fun hi => .ite (fun _ => .next (.bcwParityError hc true (by simpa using hi))) fun _ =>
    .ite (fun _ => .fault _) fun hd => ?_
  have h1 := AgentRun.agentStore .refl (by simpa using hi) .whole (bcwUpdate (wordAt s (bcwLocation true c s))).next
  have h2 := fun p => h1.agentStore (by simpa using hd) p
  cases channelMode s c with
  | isi => exact ((h2 .whole _).acknowledgeInput hc).lastInput hc (x := .inputMonitorIsi c) rfl _ _ _
  | esi =>
    exact (((h2 .upper _).requestIf hc (x := .ioDataParity c) rfl _).acknowledgeInput hc).lastInput hc (x := .inputMonitorEsi c) rfl _ _ _

theorem outputFinish_run (hc : fitted s.cfg c = true) : AgentRun s (outputFinish c s) :=
  (AgentRun.putChan .refl hc _).requestIf hc (x := .outputMonitorIsi c) rfl _

theorem outputTransfer_run (hc : fitted s.cfg c = true) : Yields (outputTransfer c s) (AgentRun s) := by
  unfold outputTransfer
  split
  · exact .next (outputFinish_run hc)
  · refine .ite (fun _ => .fault _) fun hi => .ite (fun _ => .next (.bcwParityError hc false (by simpa using hi))) fun _ =>
      .ite (fun _ => .fault _) fun _ => ?_
    have h1 := AgentRun.agentStore .refl (by simpa using hi) .whole (bcwUpdate (wordAt s (bcwLocation false c s))).next
    have h3 := fun signal bad => (h1.sendWord hc signal).requestIf hc (x := .ioDataParity c) rfl bad
    refine .ite (fun _ => ?_) fun _ => .next (h3 _ _)
    cases channelMode s c with
    | isi => exact .next ((h3 _ _).putChan hc _)
    | esi =>
      refine .ite (fun _ => .fault _) fun hb => ?_
      exact .next ((((h3 _ _).agentStore (by simpa using hb) .lower _).putChan hc _).requestIf hc (x := .outputMonitorEsi c) rfl _)

/-! ## The clocks and the service of requests -/

theorem dayClockUpdate_run (v : BitVec 22) (s : State) : Yields (dayClockUpdate v s) (AgentRun s) :=
  .ite (fun hi => .next ((AgentRun.agentStore .refl hi _ _).tail (.setClk _ _))) fun _ => .fault _

theorem rtcUpdate_run (s : State) : Yields (rtcUpdate s) (AgentRun s) :=
  .ite (fun hi =>
    have h : AgentRun s _ := (AgentRun.agentStore .refl hi _ _).tail (.setClk _ _)
    .next (.ite (h.requestAlone rfl) h)) fun _ => .fault _

theorem serve_run {f : IoFunction} (h : functionUp s f = true) : Yields (serve f s) (AgentRun s) := by
  cases f with
  | output c =>
    simp only [functionUp, Bool.and_eq_true] at h
    obtain ⟨⟨hc, -⟩, -⟩ := h
    exact outputTransfer_run hc
  | input c =>
    simp only [functionUp, Bool.and_eq_true] at h
    obtain ⟨⟨hc, -⟩, -⟩ := h
    exact inputTransfer_run hc
  | dayClock =>
    simp only [serve]
    split
    · exact dayClockUpdate_run _ s
    · exact .next .refl
  | realTimeClock => exact rtcUpdate_run s

theorem serviceBest_run (s : State) : Yields (serviceBest s) (AgentRun s) := by
  unfold serviceBest
  split
  · rename_i hf
    exact serve_run (List.find?_some hf)
  · exact .next .refl

/-! ## Events -/

theorem onChannel_run (c : Fin 24) (f : Channel → Channel) (s : State) : AgentRun s (onChannel c f s) := by
  unfold onChannel
  split
  · exact AgentRun.putChan .refl ‹_› _
  · exact .refl

theorem externalUp_run (c : Fin 24) (s : State) : AgentRun s (externalUp c s) := by
  unfold externalUp
  split
  · rename_i h
    simp only [Bool.and_eq_true] at h
    obtain ⟨hc, -⟩ := h
    exact (AgentRun.putChan .refl hc _).requestOn hc (by cases channelMode s c <;> rfl)
  · exact .refl

theorem syncSignal_run (l : Fin 2) (s : State) : AgentRun s (syncSignal l s) :=
  .ite (AgentRun.requestAlone .refl (by split <;> rfl)) .refl

/-- Everything an event of the script other than a CPU step can do. -/
theorem respond_run (e : Event) (s : State) : Yields (respond e s) (AgentRun s) := by
  cases e with
  | cpu => exact .next .refl
  | inputLines | idrUp | idrDown | odrUp | odrDown | eiDown => exact .next (onChannel_run _ _ s)
  | eiUp c => exact .next (externalUp_run c s)
  | service => exact serviceBest_run s
  | dayClockRequest | rtcTick => exact .next (.single (.setClk _ _))
  | dayClockTick | powerLoss => exact .next (AgentRun.requestAlone .refl rfl)
  | syncLine l => exact .next (syncSignal_run l s)
  | otherStore => exact .ite (fun hi => .next (AgentRun.agentStore .refl hi _ _)) fun _ => .fault _
  | otherTestAndSet => exact .ite (fun hi => .next (.ite .refl (AgentRun.agentStore .refl hi _ _))) fun _ => .fault _
  | elapsed ns => exact .next (.single (.elapse ns s))
  | parityFault => exact .next (.single (.setParity _ _))
  | setMsr | setJumpKey | setStopKey | setBankMode => exact .next (.single (.setPanel _ _))
  | load a w =>
    have h : AgentRun s (if installed s a then agentStore a .whole w s else s) := by
      split
      · exact AgentRun.agentStore .refl ‹_› _ _
      · exact .refl
    exact .next (.ite .refl h)
  | setP a => exact .next (.ite .refl (.single (.placeP a s)))
  | start | stop => exact .next (.single (.setRun _ _))
  | masterClear => exact .next (.ite .refl (.single (.masterClear s)))
  | ioClear => exact .next (.ite .refl (.single (.emit _ _)))

/-! ## One step of the machine -/

/-- Everything a step can do: it takes an event off the script, if there is one, and then the CPU or another agent acts. -/
theorem step_acts (s : State) : ∃ l, Yields (step s) fun t => CpuStep (s.setInputs l) t ∨ AgentRun (s.setInputs l) t := by
  unfold step
  split
  · exact ⟨s.inputs, (cycle_step false s).imp fun _ => .inl⟩
  · rename_i rest _
    refine ⟨rest, ?_⟩
    unfold handle
    split
    · exact (cycle_step _ _).imp fun _ => .inl
    · exact (respond_run _ _).imp fun _ => .inr

/-- A property is kept by every step that does not depend on the script and that the CPU and every update by another agent keep. -/
theorem step_keeps {p : State → Prop} (hin : ∀ s l, p s → p (s.setInputs l)) (hcpu : ∀ {s t}, CpuStep s t → p s → p t)
    (hagent : ∀ {s t}, AgentUpdate s t → p s → p t) (s t : State) (hs : p s) (h : step s = .next t) : p t := by
  obtain ⟨l, hl⟩ := step_acts s
  rcases hl t h with hc | ha
  · exact hcpu hc (hin s l hs)
  · exact chain_keeps hagent ha (hin s l hs)

end Sys2Proof.Machine
end

section
/-! The channel invariant (10_state.md R56, R57) and the entry invariant (10_state.md R37, R41) are kept by every step. -/

namespace Sys2Proof.Machine

open Sys2Proof

section

variable {s t : State} {i : Instr}

/-! ## The channel registers after an entry -/

/-- Recording the interrupted sequence is a chain of updates. -/
theorem Routine.enterRecord (h : Routine s t) (x : Interrupt) (a : Option Addr) : Routine s (enterRecord x a t) := by
  have ifr : ∀ {u}, Routine s u → Routine s (enterRepeatIfr x a u) := fun h => by
    unfold enterRepeatIfr
    split
    · exact h.setIfr _
    · split
      · exact h.setIfr _
      · exact h.setIfr _
      · exact h.setIfr _
      · exact (h.setIfr _).spend
  have back : Routine s (if t.rep.word.isSome then t.setPc (t.pc - 1) else t) := .ite (h.setPc _) h
  exact .ite (.ite back (ifr back)) (.ite h (h.setIfr _))

/-- The number of a fitted channel names it. -/
theorem channelOf_ofNat {cfg : Config} {c : Fin 24} (h : fitted cfg c = true) : channelOf cfg (BitVec.ofNat 5 c.val) = some c := by
  have hc : (BitVec.ofNat 5 c.val).toNat = c.val := by simp; omega
  simp [channelOf, hc, h]

/-- After the entry of an interrupt of a fitted channel, or of none, the registers in use name a fitted channel. -/
theorem enterSelect_fitted {cfg : Config} (x : Interrupt) (sel : ChannelSelect)
    (hx : ∀ y, x = .cond y → ∀ c, y.channel = some c → fitted cfg c = true) :
    ((enterSelect x sel).useIasr = true → (channelOf cfg (enterSelect x sel).iasr).isSome = true) ∧
      ((enterSelect x sel).usePecsr = true → (channelOf cfg (enterSelect x sel).pecsr).isSome = true) := by
  cases x with
  | uncond => exact ⟨nofun, nofun⟩
  | cond y =>
    have hc : ∀ c, y.channel = some c → (channelOf cfg (BitVec.ofNat 5 c.val)).isSome = true := fun c e =>
      Option.isSome_of_eq_some (channelOf_ofNat (hx y rfl c e))
    cases y with
    | bcwParity c | ioDataParity c => exact ⟨nofun, fun _ => hc c rfl⟩
    | externalEsi c | inputMonitorEsi c | outputMonitorEsi c | externalIsi c | inputMonitorIsi c | outputMonitorIsi c =>
      exact ⟨fun _ => hc c rfl, nofun⟩
    | powerLoss | dayClock | realTimeClock | sync0 | sync1 => exact ⟨nofun, nofun⟩

/-! ## The channel invariant -/

theorem Update.channelInv (h : Update s t) (hs : ChannelInv s) : ChannelInv t := by cases h <;> exact hs

theorem Routine.channelInv (h : Routine s t) (hs : ChannelInv s) : ChannelInv t := chain_keeps Update.channelInv h hs

/-- What an entry leaves of the requests and the channels, and makes of the channel registers. -/
theorem enter_channels (x : Interrupt) (a : Option Addr) (s : State) :
    (enter x a s).pending = s.pending ∧ (enter x a s).chans = s.chans ∧ (enter x a s).cfg = s.cfg ∧
      (enter x a s).sel = enterSelect x s.sel := by
  have h := Routine.enterRecord (s := s) .refl x a
  have hp := h.field_eq State.pending fun hu => by cases hu <;> rfl
  have hc := h.field_eq State.chans fun hu => by cases hu <;> rfl
  have hs := h.field_eq State.sel fun hu => by cases hu <;> rfl
  simp [enter, hp, hc, h.cfg, hs]

theorem channelInv_enter (x : Interrupt) (a : Option Addr) (hx : ∀ y, x = .cond y → ∀ c, y.channel = some c → fitted s.cfg c = true)
    (hs : ChannelInv s) : ChannelInv (enter x a s) := by
  obtain ⟨hp, hc, hcfg, hsel⟩ := enter_channels x a s
  obtain ⟨nodup, pending, idle, -, -⟩ := hs
  unfold ChannelInv chan
  rw [hp, hc, hcfg, hsel]
  exact ⟨nodup, pending, idle, enterSelect_fitted x s.sel hx⟩

/-- Writing the flags of a fitted channel keeps the invariant. -/
theorem channelInv_putChan {c : Fin 24} (hc : fitted s.cfg c = true) (w : Channel) (hs : ChannelInv s) : ChannelInv (putChan c w s) := by
  obtain ⟨nodup, pending, idle, iasr, pecsr⟩ := hs
  refine ⟨nodup, pending, fun d hd => ?_, iasr, pecsr⟩
  have hne : c ≠ d := fun e => by simp [putChan_cfg, ← e, hc] at hd
  have hsame : chan (putChan c w s) d = chan s d := by
    simp only [chan, putChan, State.setChans_chans, Fin.getElem_fin]
    exact Vector.getElem_set_ne _ _ fun e => hne (Fin.ext e)
  rw [hsame]
  exact idle d hd

theorem Ends.channelInv (h : Ends s t) (hs : ChannelInv s) : ChannelInv t := by
  cases h with
  | done h => exact h.channelInv hs
  | interrupted h x a => exact channelInv_enter _ a nofun (h.channelInv hs)

theorem channelInv_setLockout (hs : ChannelInv s) : ChannelInv (setLockout s) := by
  unfold setLockout
  split <;> exact hs

theorem Special.channelInv (h : Special i s t) (hs : ChannelInv s) : ChannelInv t := by
  cases h with
  | releaseLockout =>
    obtain ⟨nodup, pending, idle, -, -⟩ := hs
    exact ⟨nodup, pending, idle, nofun, nofun⟩
  | setLockout => exact channelInv_setLockout hs
  | putChan _ hc w => exact channelInv_putChan hc w hs
  | loadIfrRir | loadRir | setCsr | goRemote => exact hs

theorem Runs.channelInv (h : Runs i s t) (hs : ChannelInv s) : ChannelInv t := by
  cases h with
  | plain e => exact e.channelInv hs
  | special h a e => exact e.channelInv (a.channelInv (h.channelInv hs))

theorem channelInv_settleIfr (hs : ChannelInv s) : ChannelInv (settleIfr s) := by
  unfold settleIfr
  split <;> exact hs

theorem channelInv_closeEntry (hs : ChannelInv s) : ChannelInv (closeEntry s) := by
  unfold closeEntry
  split <;> exact hs

theorem CpuStep.channelInv (h : CpuStep s t) (hs : ChannelInv s) : ChannelInv t := by
  cases h with
  | ends e => exact e.channelInv hs
  | taken hx =>
    obtain ⟨nodup, pending, rest⟩ := hs
    refine channelInv_enter _ none (fun y e => pending y ?_) ⟨nodup.erase _, fun y hy => pending y (List.mem_of_mem_erase hy), rest⟩
    cases e
    exact hx
  | diverted h r =>
    have hu : ChannelInv _ := h.channelInv hs
    exact r.channelInv hu
  | completed h r =>
    have hu : ChannelInv _ := h.channelInv hs
    exact channelInv_closeEntry (channelInv_settleIfr (r.channelInv hu))
  | repeated _ r h => exact h.channelInv (r.channelInv hs)

/-- Requests are a set: a request that is pending is not entered again (D7, log 48). -/
theorem channelInv_request {x : CondInt} (hx : ∀ c, x.channel = some c → fitted s.cfg c = true) (hs : ChannelInv s) :
    ChannelInv (request x s) := by
  unfold request
  split
  · exact hs
  · rename_i hn
    obtain ⟨nodup, pending, rest⟩ := hs
    exact ⟨nodup.cons (by simpa using hn), List.forall_mem_cons.mpr ⟨hx, pending⟩, rest⟩

theorem channelInv_masterClear (s : State) : ChannelInv (masterClear s) := by
  refine ⟨List.nodup_nil, nofun, fun c _ => ?_, nofun, nofun⟩
  simp [chan, masterClear, clearChannel]

theorem AgentUpdate.channelInv (h : AgentUpdate s t) (hs : ChannelInv s) : ChannelInv t := by
  cases h with
  | request hx => exact channelInv_request hx hs
  | putChan hc w => exact channelInv_putChan hc w hs
  | masterClear => exact channelInv_masterClear s
  | elapse ns =>
    unfold Machine.elapse
    split <;> exact hs
  | store | setParity | setClk | setPanel | setRun | placeP | emit => exact hs

/-! ## The entry invariant -/

/-- The first half of `EntryInv`: an active or newly loaded IFR is not held. -/
def IfrUnheld (s : State) : Prop := s.ctl.ifrActive = true ∨ s.ctl.newIfr ≠ .settled → s.ctl.ifrHold = false

/-- What the second half of `EntryInv` says of an open entrance. -/
def Executive (s : State) : Prop :=
  s.ctl.ifrHold = true ∧ s.lockout.locked = true ∧ s.ctl.ifrActive = false ∧ s.ctl.rirActive = false ∧ s.ctl.newIfr = .settled

theorem entryInv_iff (s : State) : EntryInv s ↔ IfrUnheld s ∧ (s.entryOpen = true → Executive s) := Iff.rfl

/-- A newly loaded IFR is not held when it takes effect. -/
theorem ifrUnheld_activate (hd : s.ctl.newIfr = .due) (hs : IfrUnheld s) : IfrUnheld (activate s) := fun _ =>
  hs (.inr (by simp [hd]))

theorem Update.ifrUnheld (h : Update s t) (hs : IfrUnheld s) : IfrUnheld t := by
  cases h with
  | activate hd => exact ifrUnheld_activate hd hs
  | _ => exact hs

/-- In the executive state no IFR is newly loaded, so none takes effect. -/
theorem Update.executive (h : Update s t) (hs : Executive s) : Executive t := by
  cases h with
  | activate hd =>
    obtain ⟨-, -, -, -, settled⟩ := hs
    exact absurd (hd.symm.trans settled) nofun
  | _ => exact hs

theorem Update.entryInv (h : Update s t) (hs : EntryInv s) : EntryInv t := by
  obtain ⟨unheld, entrance⟩ := (entryInv_iff s).mp hs
  refine (entryInv_iff t).mpr ⟨h.ifrUnheld unheld, fun ho => h.executive (entrance ?_)⟩
  have hopen : t.entryOpen = s.entryOpen := by cases h <;> rfl
  exact hopen ▸ ho

theorem Routine.entryInv (h : Routine s t) (hs : EntryInv s) : EntryInv t := chain_keeps Update.entryInv h hs

/-- Every interrupt sets up the executive state. -/
theorem entryInv_enter (x : Interrupt) (a : Option Addr) (s : State) : EntryInv (enter x a s) := by
  obtain ⟨hold, active, rir, settled, -, -, lockout, -, -⟩ := enter_modes x a s
  exact ⟨by simp [active, settled], fun _ => ⟨hold, by simp [lockout], active, rir, settled⟩⟩

theorem Ends.entryInv (h : Ends s t) (hs : EntryInv s) : EntryInv t := by
  cases h with
  | done h => exact h.entryInv hs
  | interrupted => exact entryInv_enter _ _ _

theorem Ends.ifrUnheld (h : Ends s t) (hs : IfrUnheld s) : IfrUnheld t := by
  cases h with
  | done h => exact chain_keeps Update.ifrUnheld h hs
  | interrupted => exact (entryInv_enter _ _ _).1

theorem Special.ifrUnheld (h : Special i s t) (hs : IfrUnheld s) : IfrUnheld t := by
  cases h with
  | setLockout => simpa [IfrUnheld] using hs
  | loadIfrRir => exact fun _ => rfl
  | releaseLockout | loadRir | setCsr | goRemote | putChan => exact hs

theorem Runs.ifrUnheld (h : Runs i s t) (hs : IfrUnheld s) : IfrUnheld t := by
  cases h with
  | plain e => exact e.ifrUnheld hs
  | special h a e => exact e.ifrUnheld (a.ifrUnheld (chain_keeps Update.ifrUnheld h hs))

/-- A special act that says where the next instruction comes from is an Execute Remote. -/
theorem Special.entryInv_of_fetch (h : Special i s t) (hf : t.fetch ≠ s.fetch) (hs : EntryInv s) : EntryInv t := by
  cases h with
  | goRemote => exact hs
  | setLockout => exact absurd (setLockout_fetch s) hf
  | _ => exact absurd rfl hf

/-- An end other than in an interrupt leaves the source of the next instruction. -/
theorem Ends.entryInv_of_fetch (h : Ends s t) (hf : t.fetch ≠ .program) (hs : s.fetch ≠ .program → EntryInv s) : EntryInv t := by
  cases h with
  | done h => exact h.entryInv (hs (h.fetch ▸ hf))
  | interrupted => exact entryInv_enter _ _ _

/-- An instruction after which the next one does not come from P took an interrupt or was an Execute Remote. -/
theorem Runs.entryInv_of_fetch (h : Runs i s t) (hp : s.fetch = .program) (hf : t.fetch ≠ .program) (hs : EntryInv s) : EntryInv t := by
  cases h with
  | plain e => exact e.entryInv_of_fetch hf fun hn => absurd hp hn
  | special h a e => exact e.entryInv_of_fetch hf fun hn => a.entryInv_of_fetch (by rwa [h.fetch, hp]) (h.entryInv hs)

theorem ifrUnheld_settleIfr (hs : IfrUnheld s) : IfrUnheld (settleIfr s) := by
  unfold settleIfr
  split
  · exact hs
  · exact fun _ => hs (.inr (by simp [*]))
  · exact ifrUnheld_activate ‹_› hs

/-- The end of an instruction closes the entrance. -/
theorem entryInv_closeEntry (hs : IfrUnheld s) : EntryInv (closeEntry s) := by
  unfold closeEntry
  split
  · exact ⟨hs, nofun⟩
  · exact ⟨hs, fun ho => absurd ho ‹_›⟩

theorem CpuStep.entryInv (h : CpuStep s t) (hs : EntryInv s) : EntryInv t := by
  cases h with
  | ends e => exact e.entryInv hs
  | taken => exact entryInv_enter _ _ _
  | diverted h r hf =>
    have hu : EntryInv _ := h.entryInv hs
    exact r.entryInv_of_fetch rfl hf hu
  | completed h r =>
    have hu : EntryInv _ := h.entryInv hs
    exact entryInv_closeEntry (ifrUnheld_settleIfr (r.ifrUnheld hu.1))
  | repeated hi r h =>
    cases r with
    | plain e => exact h.entryInv (e.entryInv hs)
    | special _ a => exact absurd a.not_repeated hi

theorem AgentUpdate.entryInv (h : AgentUpdate s t) (hs : EntryInv s) : EntryInv t := by
  cases h with
  | masterClear => exact ⟨by simp [Machine.masterClear], nofun⟩
  | request =>
    unfold Machine.request
    split <;> exact hs
  | elapse =>
    unfold Machine.elapse
    split <;> exact hs
  | store | setParity | setClk | setPanel | setRun | placeP | emit | putChan => exact hs

end

/-- Settles O55: requests and channel flags are of fitted channels wherever they are written, and an entry puts the channel of its
request into the address registers. -/
theorem channelInvIsKept : Obligations.ChannelInvIsKept := by
  unfold Obligations.ChannelInvIsKept
  exact step_keeps (fun _ _ hs => hs) CpuStep.channelInv AgentUpdate.channelInv

/-- Settles O56: only an instruction leaves the executive state, and where that instruction completes the entrance is closed. -/
theorem entryInvIsKept : Obligations.EntryInvIsKept := by
  unfold Obligations.EntryInvIsKept
  exact step_keeps (fun _ _ hs => hs) CpuStep.entryInv AgentUpdate.entryInv

end Sys2Proof.Machine
end

section
/-! Storage keeps its canonical form and lists fitted words only (20_memory.md R80, R83): every write goes through `Memory.set`, at an
address that names a fitted word. -/

namespace Sys2Proof.Machine

open Sys2Proof

section

variable {s t : State} {i : Instr}

/-- The invariant looks at the storage list and the installation alone. -/
theorem storageInv_congr (hm : t.mem = s.mem) (hc : t.cfg = s.cfg) (hs : StorageInv s) : StorageInv t := by
  unfold StorageInv
  rw [hm, hc]
  exact hs

/-- A write of a fitted word keeps the invariant. -/
theorem storageInv_set {a : Addr} (h : installed s a = true) {w : Word} (hm : t.mem = s.mem.set a.toNat w) (hc : t.cfg = s.cfg)
    (hs : StorageInv s) : StorageInv t := by
  obtain ⟨hwf, hfit⟩ := hs
  unfold StorageInv
  rw [hm, hc]
  refine ⟨Memory.set_wf hwf _ _, fun c hmem => ?_⟩
  rcases Memory.mem_set hmem with rfl | hold
  · simpa [installed] using h
  · exact hfit c hold

theorem Update.storageInv (h : Update s t) (hs : StorageInv s) : StorageInv t := by
  cases h with
  | store hi => exact storageInv_set hi rfl rfl hs
  | _ => exact hs

theorem Routine.storageInv (h : Routine s t) (hs : StorageInv s) : StorageInv t := chain_keeps Update.storageInv h hs

/-- An entry writes no storage. -/
theorem storageInv_enter (x : Interrupt) (a : Option Addr) (hs : StorageInv s) : StorageInv (enter x a s) := by
  have hr : StorageInv (enterRecord x a s) := (Routine.enterRecord .refl x a).storageInv hs
  exact storageInv_congr (by simp [enter]) (by simp [enter]) hr

theorem Ends.storageInv (h : Ends s t) (hs : StorageInv s) : StorageInv t := by
  cases h with
  | done h => exact h.storageInv hs
  | interrupted h => exact storageInv_enter _ _ (h.storageInv hs)

theorem Special.storageInv (h : Special i s t) (hs : StorageInv s) : StorageInv t := by
  cases h with
  | setLockout => exact storageInv_congr (setLockout_mem s) (setLockout_cfg s) hs
  | _ => exact hs

theorem Runs.storageInv (h : Runs i s t) (hs : StorageInv s) : StorageInv t := by
  cases h with
  | plain e => exact e.storageInv hs
  | special h a e => exact e.storageInv (a.storageInv (h.storageInv hs))

theorem storageInv_settleIfr (hs : StorageInv s) : StorageInv (settleIfr s) := by
  unfold settleIfr
  split <;> exact hs

theorem storageInv_closeEntry (hs : StorageInv s) : StorageInv (closeEntry s) := by
  unfold closeEntry
  split <;> exact hs

theorem CpuStep.storageInv (h : CpuStep s t) (hs : StorageInv s) : StorageInv t := by
  cases h with
  | ends e => exact e.storageInv hs
  | taken => exact storageInv_enter _ none (storageInv_congr (s := s) rfl rfl hs)
  | diverted h r => exact r.storageInv (storageInv_congr rfl rfl (h.storageInv hs))
  | completed h r =>
    exact storageInv_closeEntry (storageInv_settleIfr (r.storageInv (storageInv_congr rfl rfl (h.storageInv hs))))
  | repeated _ r h => exact h.storageInv (r.storageInv hs)

@[simp] theorem request_mem (x : CondInt) (s : State) : (request x s).mem = s.mem := by unfold request; split <;> rfl

theorem AgentUpdate.storageInv (h : AgentUpdate s t) (hs : StorageInv s) : StorageInv t := by
  cases h with
  | store hi => exact storageInv_set hi rfl rfl hs
  | request => exact storageInv_congr (request_mem _ s) (request_cfg _ s) hs
  | elapse ns =>
    unfold Machine.elapse
    split <;> exact hs
  | setParity | setClk | setPanel | setRun | placeP | emit | masterClear | putChan => exact hs

end

/-- Settles O54: every write of storage, by the CPU or another agent, is a `Memory.set` at an installed address. -/
theorem storageInvIsKept : Obligations.StorageInvIsKept := by
  unfold Obligations.StorageInvIsKept
  exact step_keeps (fun _ _ hs => hs) CpuStep.storageInv AgentUpdate.storageInv

end Sys2Proof.Machine
end

section
/-! Addresses, views and limits as numbers (20_memory.md R93 to R101, 10_state.md R26, R27, R43). -/

namespace Sys2Proof.Machine

open Sys2Proof

section

variable {s : State}

theorem govIfr_settled (h : s.ctl.newIfr = .settled) : govIfr s = s.ctl.ifr := by
  unfold govIfr; rw [h]

/-- An index of 11 bits stands for that many blocks of 64 words. -/
theorem toNat_block (v : BitVec 11) (w : BitVec 6) : (v ++ w : BitVec (11 + 6)).toNat = v.toNat * 64 + w.toNat := by
  rw [BitVec.toNat_append, ← Nat.shiftLeft_add_eq_or_of_lt w.isLt, Nat.shiftLeft_eq]

/-- The MSR selects one of four quarters of storage. -/
theorem toNat_quarter (m : BitVec 2) (n : BitVec 15) : (m ++ n : BitVec (2 + 15)).toNat = m.toNat * 2 ^ 15 + n.toNat := by
  rw [BitVec.toNat_append, ← Nat.shiftLeft_add_eq_or_of_lt n.isLt, Nat.shiftLeft_eq]

/-- The limits of the PLR are inclusive (10_state.md R43). -/
theorem inside_iff (s : State) (a : Addr) :
    inside s a = true ↔ s.ctl.plrLL.toNat * 64 ≤ a.toNat ∧ a.toNat ≤ s.ctl.plrUL.toNat * 64 + 63 := by
  simp only [inside, toNat_block, Bool.and_eq_true, decide_eq_true_eq]
  exact Iff.rfl

/-- Relative addresses are counted from the MSR's quarter, the PLR's lower limit or the RIR (20_memory.md R93, R95, D10). -/
theorem toNat_relIndex (b : BitVec 3) (h : s.ctl.newIfr = .settled) :
    (relIndex b s).toNat =
      if s.ctl.rirActive = false then s.panel.msr.toNat * 2 ^ 15
      else if s.ctl.ifrActive = true ∧ s.ctl.ifr.getLsbD 27 = true ∧ 4 ≤ b.toNat then s.ctl.plrLL.toNat * 64
      else s.ctl.rirIV.toNat * 64 := by
  simp only [relIndex, govIfr_settled h, Bool.not_eq_true', Bool.and_eq_true, decide_eq_true_eq, and_assoc]
  split
  · exact (toNat_quarter s.panel.msr 0#15).trans (Nat.add_zero _)
  · split
    · exact toNat_block s.ctl.plrLL 0#6
    · exact toNat_block s.ctl.rirIV 0#6

/-- A conversion with no newly loaded IFR waiting adds the relative index and is checked. -/
theorem convert_settled (b : BitVec 3) (r : Addr) (h : s.ctl.newIfr = .settled) : convert b r s = (⟨r + relIndex b s, true⟩, s) := by
  unfold convert; rw [h]

end

/-- Settles O52: each clause is the equation of the operation it names, read as a number. -/
theorem addressConversion : Obligations.AddressConversion := by
  unfold Obligations.AddressConversion
  intro b y s a n h
  have haddr : opAddr b y s = ⟨effective b y s + relIndex b s, true⟩ := by
    unfold opAddr; rw [convert_settled b _ h]
  refine ⟨?_, ?_, ?_, ?_, inside_iff s a, toNat_quarter _ _⟩
  · rw [haddr, BitVec.toNat_add, toNat_relIndex b h]
  · rw [haddr]
  · simp [bView, govIfr_settled h]
  · simp [bView, govIfr_settled h]

end Sys2Proof.Machine
end

section
/-! Instructions that end where their storage operand is denied or of wrong parity: the read class and the Replace class by the forms of
their operands (30_encoding.md R155, R157). -/

namespace Sys2Proof.Machine

open Sys2Proof

section

variable {s : State} {k b : BitVec 3} {y : BitVec 15} {r : Result}

/-! ## Operands of storage -/

@[simp] theorem OpAddr.word_zero (o : OpAddr) : o.word 0 = o.base := by simp [OpAddr.word]

/-- The Replace class uses the k designators with a storage operand. -/
theorem replaceK_eq (k : BitVec 3) : replaceK k = !immediateK k := by revert k; decide

/-- The read of an instruction's storage operand, with its address noted in f1. -/
def readNoted (b : BitVec 3) (y : BitVec 15) (s : State) : Res Word := readAt (opAddr b y s) true 0 (noteStorage b y s)

theorem readOperand_storage (hk : immediateK k = false) :
    readOperand true k b y s = (readNoted b y s).bind fun w t => .ok (selectPart k w) t := by
  have hk' : k = 1#3 ∨ k = 2#3 ∨ k = 3#3 ∨ k = 5#3 ∨ k = 6#3 := by revert k; decide
  unfold readNoted
  rcases hk' with rfl | rfl | rfl | rfl | rfl <;> simp [readOperand, operandAddr_eq]

theorem readNoted_ok (h : canRead (opAddr b y s) 0 s = true) : readNoted b y s = .ok (operandWord b y 0 s) (noteStorage b y s) := by
  have hr : canRead (opAddr b y s) 0 (noteStorage b y s) = true := canRead_noted b y 0 true s h
  unfold readNoted
  rw [readAt_ok _ true 0 _ hr, wordAt_noteStorage]
  rfl

/-! ## What an instruction answers where its operand cannot be had -/

theorem andThen_of_stop {α : Type} {x : Res α} {f : α → State → Result} (h : x = .stop r) : x.andThen f = r := by rw [h]; rfl

theorem bind_of_stop {α β : Type} {x : Res α} {f : α → State → Res β} (h : x = .stop r) : x.bind f = .stop r := by rw [h]; rfl

/-- Where the read of its storage operand ends the instruction, the instruction answers what the read does. -/
def StopsWithOperand (i : BitVec 3 → BitVec 3 → BitVec 3 → BitVec 15 → Instr) : Prop :=
  ∀ j k b y s r, immediateK k = false → readNoted b y s = .stop r → exec (i j k b y) s = r

theorem readOperand_stop (hk : immediateK k = false) (h : readNoted b y s = .stop r) : readOperand true k b y s = .stop r := by
  rw [readOperand_storage hk]; exact bind_of_stop h

theorem replaceOperand_stop (f : State → Word → Word) (hk : immediateK k = false) (h : readNoted b y s = .stop r) :
    replaceOperand k b y f s = .stop r := by
  simp only [replaceOperand, replaceK_eq, hk, operandAddr_eq, Bool.not_false, if_true]
  exact bind_of_stop h

/-- 23, 50, 52 and 53 forbid k = 7, which has no storage operand. -/
theorem notSevenK_of_storage (hk : immediateK k = false) : notSevenK k = true := by revert k; decide

variable {i : BitVec 3 → BitVec 3 → BitVec 3 → BitVec 15 → Instr}

/-- A meaning that takes its operand first. -/
theorem StopsWithOperand.read {g : BitVec 3 → BitVec 3 → Word → State → Result}
    (hi : ∀ j k b y s, exec (i j k b y) s = (readOperand true k b y s).andThen (g j k)) : StopsWithOperand i :=
  fun j k b y s _ hk h => (hi j k b y s).trans (andThen_of_stop (readOperand_stop hk h))

/-- A meaning that takes its operand first and is refused for k = 7. -/
theorem StopsWithOperand.readNotSeven {g : BitVec 3 → BitVec 3 → Word → State → Result}
    (hi : ∀ j k b y s, exec (i j k b y) s =
      if notSevenK k then (readOperand true k b y s).andThen (g j k) else .refused .forbiddenDesignator) : StopsWithOperand i :=
  fun j k b y s _ hk h =>
    ((hi j k b y s).trans (if_pos (notSevenK_of_storage hk))).trans (andThen_of_stop (readOperand_stop hk h))

theorem StopsWithOperand.shift {f : Nat → State → State} (hi : ∀ j k b y s, exec (i j k b y) s = shiftNormal f j k b y s) :
    StopsWithOperand i :=
  fun j k b y s _ hk h => (hi j k b y s).trans (andThen_of_stop (bind_of_stop (readOperand_stop hk h)))

/-- A Replace-class instruction whose result is `g A Q Y` (30_encoding.md R157). -/
def Replaces (i : BitVec 3 → BitVec 3 → BitVec 3 → BitVec 15 → Instr) (g : Word → Word → Word → Word) : Prop :=
  ∀ j, ∃ skip : Unit → State → Result,
    ∀ k b y s, exec (i j k b y) s = (replaceOperand k b y (fun t v => g t.a t.q v) s).andThen skip

/-- The thirteen Replace-class instructions and their results of A, Q and the operand. -/
def replaceClass : List ((BitVec 3 → BitVec 3 → BitVec 3 → BitVec 15 → Instr) × (Word → Word → Word → Word)) :=
  [(.replaceAPlusY, fun a _ v => onesAdd a v), (.replaceAMinusY, fun a _ v => onesSub a v),
    (.replaceYPlusQ, fun _ q v => onesAdd v q), (.replaceYMinusQ, fun _ q v => onesSub v q),
    (.replaceYPlus1, fun _ _ v => onesAdd v 1), (.replaceYMinus1, fun _ _ v => onesSub v 1),
    (.replaceLp, fun _ q v => v &&& q), (.replaceAPlusLp, fun a q v => onesAdd a (v &&& q)),
    (.replaceAMinusLp, fun a q v => onesSub a (v &&& q)), (.replaceSelectiveSet, fun a _ v => a ||| v),
    (.replaceSelectiveComplement, fun a _ v => a ^^^ v), (.replaceSelectiveClear, fun a _ v => a &&& ~~~v),
    (.replaceSelectiveSubstitute, fun a q v => (a &&& ~~~q) ||| (v &&& q))]

theorem replaces_of_normal {g : Word → Word → Word → Word}
    (hi : ∀ j k b y s, exec (i j k b y) s = replaceNormal (fun t v => g t.a t.q v) j k b y s) : Replaces i g :=
  fun j => ⟨fun _ t => endNormal j t, fun k b y s => hi j k b y s⟩

theorem replaces_of_mem : ∀ p ∈ replaceClass, Replaces p.1 p.2 := by
  simp only [replaceClass, List.forall_mem_cons]
  refine ⟨?_, ?_, ?_, ?_, ?_, ?_, ?logicalProduct, ?_, ?_, ?_, ?_, ?_, ?_, nofun⟩
  case logicalProduct => exact fun j => ⟨fun _ t => .next (skipIf (skipLp j t) t), fun _ _ _ _ => rfl⟩
  all_goals exact replaces_of_normal fun _ _ _ _ _ => rfl

theorem Replaces.stopsWithOperand {g : Word → Word → Word → Word} (hi : Replaces i g) : StopsWithOperand i := by
  intro j k b y s r hk h
  obtain ⟨skip, e⟩ := hi j
  exact (e k b y s).trans (andThen_of_stop (replaceOperand_stop _ hk h))

end

end Sys2Proof.Machine
end

section
/-! References outside the limits (20_memory.md R100 to R104, 60_exceptions.md R550). -/

namespace Sys2Proof.Machine

open Sys2Proof

section

variable {s : State} {k b : BitVec 3} {y : BitVec 15}

/-! ## When a reference is limited -/

/-- Reads and jumps are limited by f3 = 01 of the active IFR (20_memory.md R100). -/
theorem readProtected_iff (h : s.ctl.newIfr = .settled) :
    readProtected s = true ↔ s.ctl.ifrActive = true ∧ s.ctl.ifr.extractLsb' 21 2 = 1#2 := by
  simp [readProtected, protField, govIfr_settled h]

/-- Writes are limited by every f3 but 00 (20_memory.md R100). -/
theorem writeProtected_iff (h : s.ctl.newIfr = .settled) :
    writeProtected s = true ↔ s.ctl.ifrActive = true ∧ s.ctl.ifr.extractLsb' 21 2 ≠ 0#2 := by
  simp [writeProtected, protField, govIfr_settled h]

theorem inside_eq_false {a : Addr} (h : ¬ (s.ctl.plrLL.toNat * 64 ≤ a.toNat ∧ a.toNat ≤ s.ctl.plrUL.toNat * 64 + 63)) :
    inside s a = false := by
  rwa [← Bool.not_eq_true, inside_iff]

theorem opAddr_settled (h : s.ctl.newIfr = .settled) : opAddr b y s = ⟨effective b y s + relIndex b s, true⟩ := by
  unfold opAddr; rw [convert_settled b _ h]

theorem opAddr_checked (h : s.ctl.newIfr = .settled) : (opAddr b y s).checked = true := by rw [opAddr_settled h]

theorem noteStorage_settled (h : s.ctl.newIfr = .settled) : noteStorage b y s = capture (opAddr b y s).base s := by
  simp [noteStorage, afterConvert, h]

theorem replaceDest_checked (h : s.ctl.newIfr = .settled) : (replaceDest b y s).checked = true := by
  unfold replaceDest replaceAddr
  split
  · simp only [convert_checked, decide_eq_true_eq]
    exact noteStorage_newIfr b y s
  · exact opAddr_checked h

/-! ## Denied references -/

theorem readAt_denied {o : OpAddr} (report : Bool) {n : Nat} (hc : o.checked = true) (hp : readProtected s = true)
    (hi : inside s (o.word n) = false) : readAt o report n s = .stop (protection (o.word n) report s) := by
  simp [readAt, hc, hp, hi]

theorem writeAt_denied {o : OpAddr} (report : Bool) {n : Nat} (p : Part) (v : Word) (f : State → State) (hc : o.checked = true)
    (hp : writeProtected s = true) (hi : inside s (o.word n) = false) :
    writeAt o report n p v f s = .stop (protection (o.word n) report (f s)) := by
  simp [writeAt, hc, hp, hi]

/-- A denied reference of a non-jump instruction leaves the offending address in f1 (60_exceptions.md R550). -/
theorem protection_capture (u a : Addr) (s : State) :
    protection a true (capture u s) = raise .programProtection (some a) (capture a s) := by
  simp [protection, capture_capture]

theorem readNoted_denied (h : s.ctl.newIfr = .settled) (hp : readProtected s = true) (hi : inside s (opAddr b y s).base = false) :
    readNoted b y s = .stop (raise .programProtection (some (opAddr b y s).base) (capture (opAddr b y s).base s)) := by
  obtain ⟨hread, -, -, hinside⟩ := modes_capture (opAddr b y s).base s
  unfold readNoted
  rw [noteStorage_settled h, readAt_denied true (opAddr_checked h) (hread.trans hp) (by simpa [hinside] using hi),
    protection_capture, OpAddr.word_zero]

/-- A write to the operand's own address, outside the limits, whatever is to be written. -/
theorem writeNoted_denied (p : Part) (v : Word) (h : s.ctl.newIfr = .settled) (hp : writeProtected s = true)
    (hi : inside s (opAddr b y s).base = false) :
    writeAt (opAddr b y s) true 0 p v id (noteStorage b y s) =
      .stop (raise .programProtection (some (opAddr b y s).base) (capture (opAddr b y s).base s)) := by
  obtain ⟨-, hwrite, -, hinside⟩ := modes_capture (opAddr b y s).base s
  rw [noteStorage_settled h, writeAt_denied true p v id (opAddr_checked h) (hwrite.trans hp) (by simpa [hinside] using hi),
    id_eq, protection_capture, OpAddr.word_zero]

theorem capture_setA (v : Addr) (w : Word) (s : State) : capture v (s.setA w) = (capture v s).setA w :=
  (apply_ite (fun t : State => t.setA w) (f1Inhibited s = true) s (setIfr (withF1 s.ctl.ifr v) s)).symm

theorem capture_setFree (v : Addr) (n : Nat) (s : State) : capture v (s.setFree n) = (capture v s).setFree n :=
  (apply_ite (fun t : State => t.setFree n) (f1Inhibited s = true) s (setIfr (withF1 s.ctl.ifr v) s)).symm

/-- The A of a denied store is the new one or the old one (U2, log 17). -/
theorem eitherA_eq (old : Word) (s : State) :
    eitherA old s = (s.setA (if freeChoice s then s.a else old)).setFree (s.free + 1) := by
  unfold eitherA
  split <;> rfl

/-- A does not enter the limits. -/
theorem limits_setA (v : Word) (s : State) :
    writeProtected (s.setA v) = writeProtected s ∧ ∀ x, inside (s.setA v) x = inside s x := ⟨rfl, fun _ => rfl⟩

/-- The A that a denied Replace-class store leaves: the result or the old one (U2, log 17). -/
theorem protection_eitherA (u d : Addr) (r : Word) (s : State) :
    protection d true (eitherA s.a ((capture u s).setA r)) = raise .programProtection (some d)
      (((capture d s).setA (if freeChoice s then r else s.a)).setFree (s.free + 1)) := by
  have hchoice : freeChoice ((capture u s).setA r) = freeChoice s := by simp [freeChoice]
  simp only [protection, if_true, eitherA_eq, hchoice, State.setA_a, State.setA_free, capture_setFree, capture_setA, capture_capture,
    capture_free]
  rfl

/-- A Replace-class store outside the limits: the operand has been read, and A is as before or the result. -/
theorem replaceOperand_denied (g : Word → Word → Word → Word) (hk : replaceK k = true) (h : s.ctl.newIfr = .settled)
    (hr : canRead (opAddr b y s) 0 s = true) (hp : writeProtected s = true) (hi : inside s (replaceDest b y s).base = false) :
    ∃ v, (v = s.a ∨ v = g s.a s.q (operandValue k b y s)) ∧
      replaceOperand k b y (fun t w => g t.a t.q w) s = .stop (raise .programProtection (some (replaceDest b y s).base)
        (((capture (replaceDest b y s).base s).setA v).setFree (s.free + 1))) := by
  have hread : readAt (opAddr b y s) true 0 (noteStorage b y s) = _ := readNoted_ok hr
  have hdest : replaceAddr (opAddr b y s) b (noteStorage b y s) = (replaceDest b y s, noteStorage b y s) :=
    replaceAddr_eq _ _ _ (noteStorage_newIfr b y s)
  have hvalue : selectPart k (operandWord b y 0 s) = operandValue k b y s := (operandValue_replace k b y s hk).symm
  obtain ⟨-, hwrite, -, hinside⟩ := modes_capture (opAddr b y s).base s
  obtain ⟨hwriteA, hinsideA⟩ := limits_setA (g s.a s.q (operandValue k b y s)) (capture (opAddr b y s).base s)
  refine ⟨if freeChoice s then g s.a s.q (operandValue k b y s) else s.a, by split <;> simp, ?_⟩
  simp only [replaceOperand, hk, if_true, operandAddr_eq, hread, Res.bind_ok, hdest, hvalue, noteStorage_a, noteStorage_q]
  rw [noteStorage_settled h, writeAt_denied true _ _ _ (replaceDest_checked h) (hwriteA.trans (hwrite.trans hp))
    (by rw [OpAddr.word_zero, hinsideA, hinside, hi]), protection_eitherA, OpAddr.word_zero]

/-- A denied reference that has changed nothing but f1. -/
theorem deniedAt_capture (a f1 : Addr) (s : State) :
    DeniedAt a f1 (fun v => v = s.a) s (raise .programProtection (some a) (capture f1 s)) := by
  have hself : ((capture f1 s).setA s.a).setFree s.free = capture f1 s := by
    calc ((capture f1 s).setA s.a).setFree s.free
        = ((capture f1 s).setA (capture f1 s).a).setFree (capture f1 s).free := by rw [capture_a, capture_free]
      _ = capture f1 s := rfl
  exact hself ▸ raise_deniedAt a f1 s.a s.free (fun v => v = s.a) s rfl

/-! ## The instructions -/

theorem storeA_denied (j : BitVec 3) (hk : storageK k = true) (h : s.ctl.newIfr = .settled) (hp : writeProtected s = true)
    (hi : inside s (opAddr b y s).base = false) :
    exec (.storeA j k b y) s = raise .programProtection (some (opAddr b y s).base) (capture (opAddr b y s).base s) := by
  simp only [storageK, Bool.and_eq_true, bne_iff_ne] at hk
  obtain ⟨h0, h4⟩ := hk
  show execStoreA j k b y s = _
  simp only [execStoreA, h0, h4, if_false, storeOperand, operandAddr_eq, if_true]
  exact andThen_of_stop (writeNoted_denied _ _ h hp hi)

theorem testAndSet_read_denied (h : s.ctl.newIfr = .settled) (hp : readProtected s = true) (hi : inside s (opAddr b y s).base = false) :
    exec (.testAndSet b y) s = raise .programProtection (some (opAddr b y s).base) (capture (opAddr b y s).base s) := by
  show execTestAndSet b y s = _
  simp only [execTestAndSet, operandAddr_eq, if_true]
  exact andThen_of_stop (readNoted_denied h hp hi)

theorem testAndSet_write_denied (h : s.ctl.newIfr = .settled) (hr : canRead (opAddr b y s) 0 s = true) (hp : writeProtected s = true)
    (hi : inside s (opAddr b y s).base = false) (hbit : (operandWord b y 0 s).getLsbD 14 = false) :
    exec (.testAndSet b y) s = raise .programProtection (some (opAddr b y s).base) (capture (opAddr b y s).base s) := by
  have hread : readAt (opAddr b y s) true 0 (noteStorage b y s) = _ := readNoted_ok hr
  show execTestAndSet b y s = _
  simp only [execTestAndSet, operandAddr_eq, if_true, hread, Res.andThen_ok, hbit, Bool.false_eq_true, if_false]
  exact andThen_of_stop (writeNoted_denied _ _ h hp hi)

theorem capture_newIfr (v : Addr) (s : State) : (capture v s).ctl.newIfr = s.ctl.newIfr := by
  rw [capture_ctl]; split <;> rfl

/-- A direct manual jump outside the limits does not load P. -/
theorem jumpManual_denied (h : s.ctl.newIfr = .settled) (hp : readProtected s = true) (hi : inside s (opAddr b y s).base = false) :
    exec (.jumpManual 0#3 0#3 b y) s = raise .programProtection (some (opAddr b y s).base) (capture s.pc s) := by
  obtain ⟨hread, -, -, hinside⟩ := modes_capture s.pc s
  have hafter : afterConvert (capture s.pc s) = capture s.pc s := by simp [afterConvert, capture_newIfr, h]
  have hdest : (convert b (jumpRel 0#3 (operandValue 0#3 b y s) (capture s.pc s)) (capture s.pc s)).1 = opAddr b y s := by
    simp [convert_capture, opAddr, jumpRel, operandValue]
  have hdenied : destAllowed (opAddr b y s) (afterConvert (capture s.pc s)) = false := by
    simp [destAllowed, hafter, hread, hp, hinside, hi, opAddr_checked h]
  rw [← hdest] at hdenied
  show execJumpManual 0#3 0#3 b y s = _
  rw [execJumpManual, jumpOperand_ok 0#3 b y s rfl, Res.andThen_ok]
  refine (jumpTo_denied b _ id (stopIf 0#3) _ hdenied).trans ?_
  rw [hdest, id_eq, hafter]
  rfl

/-- An Execute Remote of a target outside the limits. -/
theorem executeRemote_denied (h : s.ctl.newIfr = .settled) (hp : readProtected s = true) (hi : inside s (opAddr b y s).base = false) :
    exec (.executeRemote b y) s = raise .programProtection (some (opAddr b y s).base) (capture s.pc s) := by
  obtain ⟨hread, -, -, hinside⟩ := modes_capture s.pc s
  have hconv : convert b (effective b y (capture s.pc s)) (capture s.pc s) = (opAddr b y s, capture s.pc s) := by
    rw [convert_settled b _ ((capture_newIfr _ _).trans h), effective_capture, relIndex_capture, opAddr_settled h]
  show execExecuteRemote b y s = _
  simp only [execExecuteRemote, hconv, hread, hp, hinside, hi, opAddr_checked h, Bool.not_false, Bool.and_true, if_true]
  rfl

end

/-- Settles O42: each reference is denied before it changes anything, and the entry keeps what a denied reference leaves. -/
theorem protectionDeniesTheReference : Obligations.ProtectionDeniesTheReference := by
  unfold Obligations.ProtectionDeniesTheReference
  intro b y s hactive hsettled a d f3 outside same replace
  have hreplace : ∀ r ∈ replace, ∃ p ∈ replaceClass, r = (p.1, p.2 s.a s.q) := fun r hr =>
    (List.mem_map.mp (show r ∈ replaceClass.map fun p => (p.1, p.2 s.a s.q) from hr)).imp fun _ h => ⟨h.1, h.2.symm⟩
  have hwrite : f3 ≠ 0#2 → writeProtected s = true := fun h => (writeProtected_iff hsettled).mpr ⟨hactive, h⟩
  refine ⟨fun ho hf => ?_, fun ho hf j k hk => ?_, fun hr ho hf r hmem j k hk => ?_, fun hr ho hf hbit => ?_⟩
  · have hp : readProtected s = true := (readProtected_iff hsettled).mpr ⟨hactive, hf⟩
    have hi := inside_eq_false ho
    have hstop := readNoted_denied hsettled hp hi
    refine ⟨fun j k hk => ?_, fun r hmem j k hk => ?_, ?_, ?_, ?_⟩
    · rw [StopsWithOperand.read (i := .enterA) (g := fun j _ v t => endNormal j (t.setA v)) (fun _ _ _ _ _ => rfl) j k b y s _ hk hstop]
      exact deniedAt_capture a a s
    · obtain ⟨p, hp, rfl⟩ := hreplace r hmem
      rw [(replaces_of_mem p hp).stopsWithOperand j k b y s _ (by simpa [replaceK_eq] using hk) hstop]
      exact deniedAt_capture a a s
    · rw [testAndSet_read_denied hsettled hp hi]
      exact deniedAt_capture a a s
    · rw [jumpManual_denied hsettled hp hi]
      exact deniedAt_capture a s.pc s
    · rw [executeRemote_denied hsettled hp hi]
      exact deniedAt_capture a s.pc s
  · rw [storeA_denied j hk hsettled (hwrite hf) (inside_eq_false ho)]
    exact deniedAt_capture a a s
  · obtain ⟨p, hp, rfl⟩ := hreplace r hmem
    obtain ⟨skip, hexec⟩ := replaces_of_mem p hp j
    obtain ⟨v, hv, hstop⟩ := replaceOperand_denied p.2 hk hsettled hr (hwrite hf) (inside_eq_false ho)
    rw [hexec, andThen_of_stop hstop]
    exact raise_deniedAt d d v _ _ s hv
  · have hf3 : f3 ≠ 0#2 := fun e => by simp [e] at hf
    rw [testAndSet_write_denied hsettled hr (hwrite hf3) (inside_eq_false ho) hbit]
    exact deniedAt_capture a a s

end Sys2Proof.Machine
end

section
/-! CPU references to wrong parity (20_memory.md R84, R125, 60_exceptions.md R557). -/

namespace Sys2Proof.Machine

open Sys2Proof

section

variable {s u t noted : State} {k b : BitVec 3} {y : BitVec 15} {a p : Addr} {n : BitVec 15}

/-! ## The read class -/

/-- The instructions of the read class whose operand is a word or a half (30_encoding.md R155). -/
def readClass : List (BitVec 3 → BitVec 3 → BitVec 3 → BitVec 15 → Instr) :=
  [.rightShiftQ, .rightShiftA, .rightShiftAq, .compare, .leftShiftQ, .leftShiftA, .leftShiftAq, .enterQ, .enterA, .addA, .subtractA,
    .multiply, .divide, .addQ, .subtractQ, .enterYPlusQ, .enterYMinusQ, .enterLp, .addLp, .subtractLp, .compareMasked, .selectiveSet,
    .selectiveComplement, .selectiveClear, .selectiveSubstitute]

theorem stopsWithOperand_of_readClass : ∀ i ∈ readClass, StopsWithOperand i := by
  simp only [readClass, List.forall_mem_cons]
  exact ⟨.shift fun _ _ _ _ _ => rfl, .shift fun _ _ _ _ _ => rfl, .shift fun _ _ _ _ _ => rfl, .read fun _ _ _ _ _ => rfl,
    .shift fun _ _ _ _ _ => rfl, .shift fun _ _ _ _ _ => rfl, .shift fun _ _ _ _ _ => rfl, .read fun _ _ _ _ _ => rfl,
    .read fun _ _ _ _ _ => rfl, .read fun _ _ _ _ _ => rfl, .read fun _ _ _ _ _ => rfl, .read fun _ _ _ _ _ => rfl,
    .readNotSeven fun _ _ _ _ _ => rfl, .read fun _ _ _ _ _ => rfl, .read fun _ _ _ _ _ => rfl, .read fun _ _ _ _ _ => rfl,
    .read fun _ _ _ _ _ => rfl, .read fun _ _ _ _ _ => rfl, .read fun _ _ _ _ _ => rfl, .read fun _ _ _ _ _ => rfl,
    .read fun _ _ _ _ _ => rfl, .readNotSeven fun _ _ _ _ _ => rfl, .read fun _ _ _ _ _ => rfl,
    .readNotSeven fun _ _ _ _ _ => rfl, .readNotSeven fun _ _ _ _ _ => rfl, nofun⟩

/-! ## References -/

theorem readAt_bad {o : OpAddr} (report : Bool) {n : Nat} (hi : installed s (o.word n) = true) (hb : wordBad s (o.word n) = true)
    (hl : o.checked = true → readProtected s = true → inside s (o.word n) = true) :
    readAt o report n s = .stop (parityStop (o.word n) s) := by
  have hallowed : (o.checked && readProtected s && !inside s (o.word n)) = false := by simpa using hl
  simp [readAt, hallowed, cpuRead, hi, hb]

theorem writeAt_bad {o : OpAddr} (report : Bool) {n : Nat} (q : Part) (v : Word) (f : State → State)
    (hi : installed s (o.word n) = true) (hb : testReadBad s (o.word n) q = true)
    (hl : o.checked = true → writeProtected s = true → inside s (o.word n) = true) :
    writeAt o report n q v f s = .stop (parityStop (o.word n) (storeWord (o.word n) q v s)) := by
  have hallowed : (o.checked && writeProtected s && !inside s (o.word n)) = false := by simpa using hl
  simp [writeAt, hallowed, cpuWrite, hi, hb]

/-- A checked operand's limits are those before its address was noted. -/
theorem noteStorage_limits (h : (opAddr b y s).checked = true) :
    readProtected (noteStorage b y s) = readProtected s ∧ writeProtected (noteStorage b y s) = writeProtected s ∧
      ∀ x, inside (noteStorage b y s) x = inside s x := by
  have hdue : s.ctl.newIfr ≠ .due := by
    simpa only [opAddr, convert_checked, decide_eq_true_eq] using h
  have hnote : noteStorage b y s = capture (opAddr b y s).base s := by simp [noteStorage, afterConvert, hdue]
  obtain ⟨hread, hwrite, -, hinside⟩ := modes_capture (opAddr b y s).base s
  rw [hnote]
  exact ⟨hread, hwrite, hinside⟩

theorem noteStorage_parity (b : BitVec 3) (y : BitVec 15) (s : State) : (noteStorage b y s).parity = s.parity := by simp [noteStorage]

theorem readNoted_bad (hi : installed s ((opAddr b y s).word 0) = true) (hb : wordBad s ((opAddr b y s).word 0) = true)
    (hl : (opAddr b y s).checked = true → readProtected s = true → inside s ((opAddr b y s).word 0) = true) :
    readNoted b y s = .stop (parityStop ((opAddr b y s).word 0) (noteStorage b y s)) := by
  refine readAt_bad true (by simpa [installed] using hi) (by simpa [wordBad, halfBad, noteStorage_parity] using hb) fun hc hp => ?_
  obtain ⟨hread, -, hinside⟩ := noteStorage_limits hc
  exact (hinside _).trans (hl hc (hread ▸ hp))

theorem writeNoted_bad (q : Part) (v : Word) (hi : installed s ((opAddr b y s).word 0) = true)
    (hb : testReadBad s ((opAddr b y s).word 0) q = true)
    (hl : (opAddr b y s).checked = true → writeProtected s = true → inside s ((opAddr b y s).word 0) = true) :
    writeAt (opAddr b y s) true 0 q v id (noteStorage b y s) =
      .stop (parityStop ((opAddr b y s).word 0) (storeWord ((opAddr b y s).word 0) q v (noteStorage b y s))) := by
  refine writeAt_bad true q v id (by simpa [installed] using hi) ?_ fun hc hp => ?_
  · rw [← hb]; cases q <;> simp [testReadBad, halfBad, noteStorage_parity]
  · obtain ⟨-, hwrite, hinside⟩ := noteStorage_limits hc
    exact (hinside _).trans (hl hc (hwrite ▸ hp))

/-! ## What the entry is compared with -/

theorem parityLocation_congr (h : u.panel = s.panel) : ParityLocation u a n ↔ ParityLocation s a n := by
  unfold ParityLocation; rw [h]

theorem KeptButMemory.panel (h : KeptButMemory s u) : u.panel = s.panel := by
  obtain ⟨-, ⟨-, -, -, -, hpanel⟩, -⟩ := h
  exact hpanel

theorem KeptButMemory.entryOpen (h : KeptButMemory s u) : u.entryOpen = s.entryOpen := by
  obtain ⟨-, -, -, -, -, -, -, hopen, -, -⟩ := h
  exact hopen

/-- The entry of a fault looks the same from every state that agrees on what it leaves. -/
theorem enteredFault_congr (hk : KeptButMemory s u) (hc : ControlKept s u) (r : Addr) (h : EnteredFault n (u.setPc r) t) :
    EnteredFault n (s.setPc r) t := by
  obtain ⟨⟨hexec, hwork⟩, ⟨hsel, hchans, hclk, hout, hpanel⟩, hrun, -, hpend, -, -, -, hin, hcfg⟩ := hk
  obtain ⟨-, hul, hll, hiv, -⟩ := hc
  simpa only [EnteredFault, Entered, SameIndex, State.setPc_pc, State.setPc_bExec, State.setPc_bWork, State.setPc_ctl, State.setPc_sel,
    State.setPc_chans, State.setPc_clk, State.setPc_outputs, State.setPc_panel, State.setPc_run, State.setPc_inputs, State.setPc_cfg,
    State.setPc_pending, hexec, hwork, hsel, hchans, hclk, hout, hpanel, hrun, hpend, hin, hcfg, hul, hll, hiv] using h

/-- A parity fault in a later state of an instruction, told of the state before it. -/
theorem ParityFaultAt.of_later {rest rest' : State → Prop} {o : Result} (h : ParityFaultAt a p u u rest o) (hk : KeptButMemory s u)
    (hc : ControlKept s u) (hq : u.q = s.q) (hnoted : noted.ctl = u.ctl) (hrest : ∀ t, rest t → rest' t) :
    ParityFaultAt a p noted s rest' o := by
  obtain ⟨t, ho, n, r, hloc, hr, hent, hifr, htq, ht⟩ := h
  have hopen := hk.entryOpen
  refine ⟨t, ho, n, r, (parityLocation_congr hk.panel).mp hloc, hopen ▸ hr, enteredFault_congr hk hc r hent, ?_, htq.trans hq, hrest t ht⟩
  unfold IfrEntered
  rw [hnoted]
  exact hifr

theorem ControlKept.of_ctl (h : u.ctl = s.ctl) : ControlKept s u := by simp [ControlKept, h]

/-- Inside a Repeat sequence f1 is not written, and an entry does not tell whether a newly loaded IFR had come into force. -/
theorem faultedInRepeat_noteStorage (hr : s.rep.active = true) (h : FaultedInRepeat n a (noteStorage b y s) t) :
    FaultedInRepeat n a s t := by
  have hnote : noteStorage b y s = afterConvert s := by simp [noteStorage, capture, f1Inhibited, hr]
  rw [hnote] at h
  unfold afterConvert at h
  split at h
  · exact h
  · exact h

/-! ## The instructions -/

/-- An operand of wrong parity outside a Repeat sequence. -/
theorem operandParity_faultAt (hr : s.rep.active = false) :
    ParityFaultAt a s.pc (noteStorage b y s) s (fun t => SameMemory s t ∧ t.a = s.a) (parityStop a (noteStorage b y s)) := by
  obtain ⟨hkept, hwords⟩ := noteStorage_keptButMemory b y s
  have h := parityStop_faultAt a (noteStorage b y s) (by simpa using hr)
  rw [noteStorage_pc] at h
  refine h.of_later hkept (noteStorage_controlKept b y s) (noteStorage_q b y s) rfl fun t ⟨⟨hw, hp⟩, ha⟩ => ⟨⟨fun x => ?_, ?_⟩, ?_⟩
  · rw [hw, hwords]
  · rw [hp, noteStorage_parity]
  · rw [ha, noteStorage_a]

/-- The same inside one. -/
theorem operandParity_faultedInRepeat (hr : s.rep.active = true) (hw : s.rep.word.isSome = true) :
    Answers (parityStop a (noteStorage b y s)) fun t => ∃ n, ParityLocation s a n ∧ FaultedInRepeat n a s t ∧ t.a = s.a := by
  obtain ⟨t, ho, n, hloc, hfault, ha⟩ := parityStop_faultedInRepeat a (noteStorage b y s) (by simpa using hr) (by simpa using hw)
  exact ⟨t, ho, n, (parityLocation_congr (noteStorage_panel b y s)).mp hloc, faultedInRepeat_noteStorage hr hfault,
    ha.trans (noteStorage_a b y s)⟩

theorem skipIf_false (s : State) : skipIf false s = s := rfl

/-- A half-word store whose test read finds wrong parity has written its half (log 28). -/
theorem storeParity_faultAt (d : Addr) (q : Part) (v : Word) (hr : s.rep.active = false) :
    ParityFaultAt d s.pc (noteStorage b y s) s
      (fun t => wordAt t d = mergePart q (wordAt s d) v ∧ MemoryKeptBut [d] s t ∧ ParityStored d q s t ∧ t.a = s.a)
      (parityStop d (storeWord d q v (noteStorage b y s))) := by
  have hnoted := noteStorage_keptButMemory b y s
  have hframe : wordAt (storeWord d q v (noteStorage b y s)) d = mergePart q (wordAt s d) v ∧
      MemoryKeptBut [d] s (storeWord d q v (noteStorage b y s)) ∧ KeptButMemory s (storeWord d q v (noteStorage b y s)) :=
    skipIf_false (storeWord d q v (noteStorage b y s)) ▸ storeWord_frame d q v _ s false hnoted
  have hstored : ParityStored d q s (storeWord d q v (noteStorage b y s)) :=
    skipIf_false (storeWord d q v (noteStorage b y s)) ▸ storeWord_parityStored d q v _ s false (noteStorage_parity b y s)
  have hctl : ControlKept s (storeWord d q v (noteStorage b y s)) := by
    simpa only [ControlKept, storeWord_ctl] using noteStorage_controlKept b y s
  obtain ⟨hword, hother, hkept⟩ := hframe
  have h := parityStop_faultAt d (storeWord d q v (noteStorage b y s)) (by simpa using hr)
  rw [storeWord_pc, noteStorage_pc] at h
  refine h.of_later hkept hctl (by rw [storeWord_q, noteStorage_q]) (storeWord_ctl ..).symm fun t ⟨⟨hw, hp⟩, ha⟩ =>
    ⟨?_, fun x hx => ?_, fun x upper => ?_, ?_⟩
  · rw [hw, hword]
  · rw [hw, hother x hx]
  · rw [← hstored x upper, halfBad, hp, halfBad]
  · rw [ha, storeWord_a, noteStorage_a]

/-- STORE_A complements A for k = 5, 6 and 7, the k above 4 with a storage destination. -/
theorem complementK_iff (h : storageK k = true) : k.getLsbD 2 = true ↔ 5 ≤ k.toNat := by revert k; decide

theorem storeA_bad (j : BitVec 3) (hk : storageK k = true) (hi : installed s ((opAddr b y s).word 0) = true)
    (hb : testReadBad s ((opAddr b y s).word 0) (partOf k) = true)
    (hl : (opAddr b y s).checked = true → writeProtected s = true → inside s ((opAddr b y s).word 0) = true) :
    exec (.storeA j k b y) s = parityStop ((opAddr b y s).word 0)
      (storeWord ((opAddr b y s).word 0) (partOf k) (if 5 ≤ k.toNat then ~~~s.a else s.a) (noteStorage b y s)) := by
  have hk' := hk
  simp only [storageK, Bool.and_eq_true, bne_iff_ne] at hk'
  obtain ⟨h0, h4⟩ := hk'
  show execStoreA j k b y s = _
  simp only [execStoreA, h0, h4, if_false, storeOperand, operandAddr_eq, if_true, complementK_iff hk]
  exact andThen_of_stop (writeNoted_bad _ _ hi hb hl)

/-- The fetch of a word of wrong parity in normal sequence: P has advanced. -/
theorem step_fetch_bad (hin : s.inputs = []) (hrun : s.run = true) (hf : s.fetch = .program) (hr : s.rep.active = false)
    (htime : timeoutDue s = false) (hdue : dueInterrupt s = none) (hi : installed s s.pc = true) (hb : wordBad s s.pc = true) :
    step s = parityStop s.pc (s.setPc (s.pc + 1)) := by
  have hi' : installed (s.setPc (s.pc + 1)) s.pc = true := hi
  have hb' : wordBad (s.setPc (s.pc + 1)) s.pc = true := hb
  have hread : cpuRead s.pc (s.setPc (s.pc + 1)) = .stop (parityStop s.pc (s.setPc (s.pc + 1))) := by
    simp only [cpuRead, hi', hb', if_true]
  simp only [step, hin, cycle, hrun, hf, htime, hdue, runNext, hr, runProgram, hread, Bool.not_true, Bool.false_eq_true, if_false,
    Res.andThen_stop]

theorem fetchParity_faultAt (a : Addr) (hr : s.rep.active = false) :
    ParityFaultAt a p s s (fun t => SameMemory s t ∧ t.a = s.a) (parityStop a (s.setPc p)) := by
  have h := parityStop_faultAt a (s.setPc p) hr
  exact h.of_later (by simp [KeptButMemory, SameIndex, SameIo, SameSystem]) (.of_ctl rfl) rfl rfl fun _ ht => ht

end

end Sys2Proof.Machine
end

section
/-! Channel transfers that meet wrong parity (60_exceptions.md R560, R561, 49_io.md R489, R490). -/

namespace Sys2Proof.Machine

open Sys2Proof

section

variable {s u t : State} {c : Fin 24} {x : CondInt}

/-! ## Requests and parity bits -/

theorem request_eq (x : CondInt) (s : State) :
    request x s = s.setPending (if s.pending.contains x then s.pending else x :: s.pending) := by
  unfold request
  split <;> rfl

@[simp] theorem request_parity (x : CondInt) (s : State) : (request x s).parity = s.parity := by unfold request; split <;> rfl

theorem mem_request (x z : CondInt) (s : State) : z ∈ (request x s).pending ↔ z = x ∨ z ∈ s.pending := by
  unfold request
  split
  · rename_i h
    rw [List.contains_iff_mem] at h
    exact ⟨.inr, fun hz => hz.elim (fun e => e ▸ h) id⟩
  · exact List.mem_cons

/-- A half-word is bad after another was spoiled iff it was bad before or is that one. -/
theorem contains_spoilHalf (l : List Nat) (a x : Addr) (upper v : Bool) :
    (spoilHalf l a upper).contains (halfIndex x v) = (l.contains (halfIndex x v) || (decide (x = a) && v == upper)) := by
  have hindex : (halfIndex x v == halfIndex a upper) = (decide (x = a) && v == upper) := by
    rw [Bool.eq_iff_iff]
    simp [halfIndex_inj]
  rw [spoilHalf, List.contains_cons, contains_mendHalf, hindex]
  cases l.contains (halfIndex x v) <;> cases decide (x = a) && v == upper <;> rfl

/-- The parity bits after a write by another agent. -/
theorem agentStore_parity (a : Addr) (p : Part) (v : Word) (s : State) : ParityStored a p s (agentStore a p v s) :=
  storeWord_parity a p v s

/-- The parity bits of a state in which some halves have been mended. -/
theorem setParity_mended (a : Addr) (p : Part) (s : State) : ParityStored a p s (s.setParity (mendPart s.parity a p)) :=
  storeWord_parity a p 0 s

/-- A word other than the written one keeps its parity. -/
theorem ParityStored.wordBad_ne {a d : Addr} {p : Part} (h : ParityStored a p s t) (hne : d ≠ a) : wordBad t d = wordBad s d := by
  simp [wordBad, h d, hne]

/-- A word written as a whole has right parity. -/
theorem ParityStored.wordBad_self {a : Addr} (h : ParityStored a .whole s t) : wordBad t a = false := by
  simp [wordBad, h a, covers]

/-! ## A wrong buffer control word (R489) -/

/-- The BCW's location holds 0 with wrong parity. -/
def spoilWord (loc : Addr) (s : State) : State :=
  dropOverlap loc ((s.setMem (s.mem.set loc.toNat 0)).setParity (spoilHalf (spoilHalf s.parity loc false) loc true))

/-- The flags of a channel whose BCW had wrong parity. -/
def bcwFailedChannel (input : Bool) (mode : ChannelMode) (v : Channel) : Channel :=
  match input, mode with
  | true, .esi => { v with idr := false }
  | true, .isi => { v with inActive := false }
  | false, .esi => { v with odr := false }
  | false, .isi => { v with odr := false, outActive := false }

/-- The signals a channel sends whose BCW had wrong parity. -/
def bcwFailedSignals (input : Bool) (mode : ChannelMode) (c : Fin 24) : List Signal :=
  match input, mode with
  | true, .esi => [.inputAck c]
  | true, .isi => []
  | false, _ => [.outputAck c (BitVec.allOnes 30)]

theorem putChan_putChan (c : Fin 24) (v w : Channel) (s : State) : putChan c w (putChan c v s) = putChan c w s := by
  simp [putChan, State.setChans]

theorem chan_putChan (c : Fin 24) (v : Channel) (s : State) : chan (putChan c v s) c = v := by simp [chan, putChan]

theorem chan_putChan_ne {e : Fin 24} (h : e ≠ c) (v : Channel) (s : State) : chan (putChan c v s) e = chan s e := by
  simp only [chan, putChan, State.setChans_chans, Fin.getElem_fin]
  exact Vector.getElem_set_ne _ _ fun he => h (Fin.ext he.symm)

/-- A channel's flags are written after a word has been sent on it. -/
theorem putChan_sendWord (c : Fin 24) (x : Signal) (f : Channel → Channel) (s : State) :
    putChan c (f (chan (sendWord x c s) c)) (sendWord x c s) =
      (putChan c (f { chan s c with odr := false }) s).setOutputs (x :: s.outputs) := by
  have hchan : chan (sendWord x c s) c = { chan s c with odr := false } := chan_putChan c _ s
  rw [hchan]
  exact congrArg (fun t : State => t.setOutputs (x :: s.outputs)) (putChan_putChan c _ _ s)

/-- What is left of a transfer whose BCW had wrong parity. -/
theorem bcwParityError_eq (input : Bool) (c : Fin 24) (loc : Addr) (s : State) :
    bcwParityError input c loc s = request (.bcwParity c)
      ((putChan c (bcwFailedChannel input (channelMode s c) (chan s c)) (spoilWord loc s)).setOutputs
        (bcwFailedSignals input (channelMode s c) c ++ s.outputs)) := by
  unfold bcwParityError
  simp only []
  congr 1
  cases input <;> cases channelMode s c
  case false.isi =>
    exact putChan_sendWord c (.outputAck c (BitVec.allOnes 30)) (fun v => { v with outActive := false }) (spoilWord loc s)
  all_goals rfl

/-- What a transfer of the channel leaves after wrong parity of the BCW at a location (R489): no word is stored, the location takes 0
with wrong parity, and BCWParity is requested. The channel's own flags and the signals are for each case to say. -/
def BcwFailed (c : Fin 24) (s : State) (loc : Addr) (t : State) : Prop :=
  wordAt t loc = 0 ∧ MemoryKeptBut [loc] s t ∧ (∀ x upper, halfBad t x upper = (halfBad s x upper || decide (x = loc))) ∧
    (.bcwParity c ∈ t.pending ∧ ∀ z, z ≠ .bcwParity c → (z ∈ t.pending ↔ z ∈ s.pending)) ∧ t.a = s.a ∧ t.q = s.q ∧ t.pc = s.pc ∧
    t.ctl = s.ctl ∧ SameIndex s t ∧ t.sel = s.sel ∧ t.run = s.run ∧ t.lockout = s.lockout ∧ t.rep = s.rep ∧ t.fetch = s.fetch ∧
    t.entryOpen = s.entryOpen ∧ t.inputs = s.inputs ∧ t.cfg = s.cfg ∧ t.clk = s.clk ∧ t.panel = s.panel ∧
    ∀ e, e ≠ c → t.chans[e] = s.chans[e]

theorem spoilWord_pending (loc : Addr) (s : State) : (spoilWord loc s).pending = s.pending := rfl

theorem wordAt_spoilWord (loc x : Addr) (s : State) : wordAt (spoilWord loc s) x = if loc = x then 0 else wordAt s x := by
  simp [wordAt, spoilWord, dropOverlap, Memory.get_set, BitVec.toNat_inj]

theorem halfBad_spoilWord (loc x : Addr) (upper : Bool) (s : State) :
    halfBad (spoilWord loc s) x upper = (halfBad s x upper || decide (x = loc)) := by
  show List.contains (spoilHalf (spoilHalf s.parity loc false) loc true) _ = _
  rw [contains_spoilHalf, contains_spoilHalf, ← halfBad]
  cases upper <;> simp

theorem bcwParityError_failed (input : Bool) (c : Fin 24) (loc : Addr) (s : State) : BcwFailed c s loc (bcwParityError input c loc s) := by
  rw [bcwParityError_eq]
  generalize bcwFailedChannel input (channelMode s c) (chan s c) = v
  generalize bcwFailedSignals input (channelMode s c) c ++ s.outputs = l
  have hword : ∀ x, wordAt (request (.bcwParity c) ((putChan c v (spoilWord loc s)).setOutputs l)) x = wordAt (spoilWord loc s) x := by
    intro x; simp only [wordAt, request_mem, State.setOutputs_mem, putChan_mem]
  have hhalf : ∀ x upper, halfBad (request (.bcwParity c) ((putChan c v (spoilWord loc s)).setOutputs l)) x upper =
      halfBad (spoilWord loc s) x upper := by
    intro x upper; simp only [halfBad, request_parity, State.setOutputs_parity, putChan_parity]
  refine ⟨?_, fun x hx => ?_, fun x upper => ?_, ⟨?_, fun z hz => ?_⟩, ?_⟩
  · rw [hword, wordAt_spoilWord, if_pos rfl]
  · rw [hword, wordAt_spoilWord, if_neg fun e => hx (by simp [e])]
  · rw [hhalf, halfBad_spoilWord]
  · exact (mem_request _ _ _).mpr (.inl rfl)
  · rw [mem_request, or_iff_right hz, State.setOutputs_pending, putChan_pending, spoilWord_pending]
  · obtain ⟨pending, e⟩ : ∃ pending, request (.bcwParity c) ((putChan c v (spoilWord loc s)).setOutputs l) =
        ((putChan c v (spoilWord loc s)).setOutputs l).setPending pending := ⟨_, request_eq _ _⟩
    rw [e]
    have hother : ∀ e, e ≠ c → chan (putChan c v (spoilWord loc s)) e = chan s e := fun e he => chan_putChan_ne he v (spoilWord loc s)
    simpa [spoilWord, dropOverlap, SameIndex, chan] using hother

/-- The flags and the signals of the channel after wrong parity of its BCW. -/
theorem bcwParityError_channel (input : Bool) (c : Fin 24) (loc : Addr) (s : State) :
    (bcwParityError input c loc s).outputs = bcwFailedSignals input (channelMode s c) c ++ s.outputs ∧
      (bcwParityError input c loc s).chans[c] = bcwFailedChannel input (channelMode s c) (chan s c) := by
  rw [bcwParityError_eq, request_eq]
  exact ⟨rfl, chan_putChan c _ (spoilWord loc s)⟩

/-! ## Where the BCW is -/

theorem bcwLocation_input (c : Fin 24) (s : State) :
    bcwLocation true c s = if channelMode s c = .esi then s.panel.msr ++ lowerHalf (s.chans[c]).inLines
      else s.panel.msr ++ BitVec.ofNat 15 (0o100 + c.val) := by
  unfold bcwLocation
  cases channelMode s c <;> rfl

theorem bcwLocation_output (c : Fin 24) (s : State) :
    bcwLocation false c s = if channelMode s c = .esi then s.panel.msr ++ lowerHalf (s.chans[c]).inLines
      else s.panel.msr ++ BitVec.ofNat 15 (0o40 + c.val) := by
  unfold bcwLocation
  cases channelMode s c <;> rfl

theorem isi_iff_not_esi (m : ChannelMode) : m = .isi ↔ ¬ m = .esi := by cases m <;> decide

theorem inputTransfer_bcw_bad {loc : Addr} (hloc : bcwLocation true c s = loc) (hi : installed s loc = true)
    (hb : wordBad s loc = true) : inputTransfer c s = .next (bcwParityError true c loc s) := by
  simp [inputTransfer, hloc, hi, hb]

theorem outputTransfer_bcw_bad {loc : Addr} (hloc : bcwLocation false c s = loc)
    (hmode : channelMode s c = .isi → (chan s c).outDone = false) (hi : installed s loc = true) (hb : wordBad s loc = true) :
    outputTransfer c s = .next (bcwParityError false c loc s) := by
  unfold outputTransfer
  cases hm : channelMode s c
  · simp [hmode hm, hloc, hi, hb]
  · simp [hloc, hi, hb]

/-! ## A word of wrong parity is reported beside (R490) -/

/-- A state that differs from another in one more request and in its parity bits. -/
def ReportedBeside (x : CondInt) (u t : State) : Prop :=
  (t.setPending u.pending).setParity u.parity = u ∧ ∀ z, z ∈ t.pending ↔ z = x ∨ z ∈ u.pending

theorem reportedBeside_iff (x : CondInt) (u t : State) :
    ReportedBeside x u t ↔ ∃ l p, t = (u.setPending l).setParity p ∧ ∀ z, z ∈ l ↔ z = x ∨ z ∈ u.pending := by
  constructor
  · rintro ⟨e, h⟩
    refine ⟨t.pending, t.parity, ?_, h⟩
    rw [← e]
    rfl
  · rintro ⟨l, p, rfl, h⟩
    exact ⟨rfl, h⟩

theorem reportedBeside_request (x : CondInt) (p : List Nat) (s : State) : ReportedBeside x (s.setParity p) (request x s) := by
  refine ⟨?_, fun z => mem_request x z s⟩
  rw [request_eq]
  rfl

/-- Updates that neither look at the requests nor at the parity bits keep the difference. -/
theorem ReportedBeside.map {f : State → State} (q : List Nat → List Nat)
    (hf : ∀ l p, f ((u.setPending l).setParity p) = ((f u).setPending l).setParity (q p)) (hp : (f u).pending = u.pending)
    (h : ReportedBeside x u t) : ReportedBeside x (f u) (f t) := by
  obtain ⟨l, p, rfl, hl⟩ := (reportedBeside_iff x u t).mp h
  exact (reportedBeside_iff x _ _).mpr ⟨l, q p, hf l p, by rwa [hp]⟩

theorem ReportedBeside.agentStore (h : ReportedBeside x u t) (a : Addr) (p : Part) (v : Word) :
    ReportedBeside x (agentStore a p v u) (agentStore a p v t) :=
  h.map (f := Machine.agentStore a p v) (fun q => mendPart q a p) (fun _ _ => rfl) rfl

theorem ReportedBeside.putChan (h : ReportedBeside x u t) (c : Fin 24) (f : Channel → Channel) :
    ReportedBeside x (putChan c (f (chan u c)) u) (putChan c (f (chan t c)) t) :=
  h.map (f := fun s => Machine.putChan c (f (chan s c)) s) id (fun _ _ => rfl) rfl

theorem ReportedBeside.emit (h : ReportedBeside x u t) (z : Signal) : ReportedBeside x (emit z u) (emit z t) :=
  h.map (f := Machine.emit z) id (fun _ _ => rfl) rfl

theorem ReportedBeside.request (h : ReportedBeside x u t) (z : CondInt) : ReportedBeside x (request z u) (request z t) := by
  obtain ⟨l, p, rfl, hl⟩ := (reportedBeside_iff x u t).mp h
  refine ⟨?_, fun w => ?_⟩
  · simp only [request_eq]
    rfl
  · simp only [mem_request, State.setParity_pending, State.setPending_pending, hl]
    exact or_left_comm

theorem ReportedBeside.ite (p : Prop) [Decidable p] {u' t' : State} (h : ReportedBeside x u t) (h' : ReportedBeside x u' t') :
    ReportedBeside x (if p then u else u') (if p then t else t') := by
  split
  · exact h
  · exact h'

/-! ### Output -/

/-- The signal an output transfer sends its word with (49_io.md R483, R485, R486). -/
def outputSignal (c : Fin 24) (w : Word) (s : State) : Signal :=
  match channelMode s c with
  | .isi => if (chan s c).efActive then .externalFunction c w else .outputAck c w
  | .esi => .outputAck c w

/-- An output transfer of the state s after its word has been sent, to the last word of a buffer. -/
def outputEnd (c : Fin 24) (done : Bool) (s t : State) : State :=
  if done then
    match channelMode s c with
    | .isi => putChan c { chan t c with outDone := true } t
    | .esi =>
      let t1 := agentStore (fixedAddr s (outputBcr c)) .lower (chan s c).inLines t
      let t2 := putChan c { chan t1 c with outActive := false } t1
      if (chan s c).outMon then request (.outputMonitorEsi c) t2 else t2
  else t

/-- The state in which an output transfer has sent the word its BCW names. -/
def outputSent (c : Fin 24) (s : State) : State :=
  let loc := bcwLocation false c s
  let step := bcwUpdate (wordAt s loc)
  let s1 := agentStore loc .whole step.next s
  sendWord (outputSignal c (wordAt s1 step.addr) s) c s1

/-- An output transfer with a good BCW and fitted words. -/
theorem outputTransfer_sent {loc a : Addr} (hloc : bcwLocation false c s = loc) (ha : (bcwUpdate (wordAt s loc)).addr = a)
    (hmode : channelMode s c = .isi → (chan s c).outDone = false) (hi : installed s loc = true) (hb : wordBad s loc = false)
    (hd : installed s a = true) (hne : loc ≠ a) (hr : installed s (fixedAddr s (outputBcr c)) = true) :
    outputTransfer c s = .next (outputEnd c (bcwUpdate (wordAt s loc)).done s
      (if wordBad s a then request (.ioDataParity c) (outputSent c s) else outputSent c s)) := by
  subst hloc ha
  have hbad := (agentStore_parity (bcwLocation false c s) .whole (bcwUpdate (wordAt s (bcwLocation false c s))).next s).wordBad_ne hne.symm
  unfold outputTransfer outputEnd outputSent outputSignal
  cases hm : channelMode s c
  · simp only [hmode hm, hi, hb, hd, hbad, Bool.not_true, Bool.false_eq_true, if_false]
    split <;> rfl
  · simp only [hi, hb, hd, hr, hbad, Bool.not_true, Bool.false_eq_true, if_false]
    split <;> rfl

theorem ReportedBeside.outputEnd (h : ReportedBeside x u t) (c : Fin 24) (done : Bool) (s : State) :
    ReportedBeside x (outputEnd c done s u) (outputEnd c done s t) := by
  refine .ite _ ?_ h
  cases channelMode s c with
  | isi => exact h.putChan c fun v => { v with outDone := true }
  | esi =>
    have hoff := (h.agentStore (fixedAddr s (outputBcr c)) .lower (chan s c).inLines).putChan c fun v => { v with outActive := false }
    exact .ite _ (hoff.request _) hoff

/-- A word of wrong parity is sent, and reported beside. -/
theorem outputTransfer_reported {loc a : Addr} (hloc : bcwLocation false c s = loc) (ha : (bcwUpdate (wordAt s loc)).addr = a)
    (hmode : channelMode s c = .isi → (chan s c).outDone = false) (hi : installed s loc = true) (hb : wordBad s loc = false)
    (hd : installed s a = true) (hne : loc ≠ a) (hr : installed s (fixedAddr s (outputBcr c)) = true) (hbad : wordBad s a = true) :
    Answers (outputTransfer c (s.setParity (mendPart s.parity a .whole))) fun u => Answers (outputTransfer c s) fun t =>
      ReportedBeside (.ioDataParity c) u t := by
  have hmend := setParity_mended a .whole s
  have hu := outputTransfer_sent (s := s.setParity (mendPart s.parity a .whole)) hloc ha hmode hi ((hmend.wordBad_ne hne).trans hb) hd hne hr
  have ht := outputTransfer_sent hloc ha hmode hi hb hd hne hr
  rw [if_neg (ne_true_of_eq_false hmend.wordBad_self)] at hu
  rw [if_pos hbad] at ht
  have hsent : ReportedBeside (.ioDataParity c) (outputSent c (s.setParity (mendPart s.parity a .whole)))
      (request (.ioDataParity c) (outputSent c s)) := reportedBeside_request _ _ (outputSent c s)
  exact ⟨_, hu, _, ht, hsent.outputEnd c _ s⟩

/-! ### Input -/

/-- An input transfer of the state s after its word has been stored: the acknowledge, and the last word of a buffer. -/
def inputEnd (c : Fin 24) (done : Bool) (s t : State) : State :=
  let t1 := acknowledgeInput c t
  if done then
    let t2 := putChan c { chan t1 c with inActive := false } t1
    if (chan s c).inMon then request (match channelMode s c with | .isi => .inputMonitorIsi c | .esi => .inputMonitorEsi c) t2 else t2
  else t1

/-- The state in which an ESI input transfer has stored its half-word. -/
def inputStored (c : Fin 24) (s : State) : State :=
  let loc := bcwLocation true c s
  let step := bcwUpdate (wordAt s loc)
  agentStore step.addr .upper ((upperHalf (chan s c).inLines).setWidth 30) (agentStore loc .whole step.next s)

/-- An ESI input transfer with a good BCW and fitted words. -/
theorem inputTransfer_stored {loc a : Addr} (hloc : bcwLocation true c s = loc) (ha : (bcwUpdate (wordAt s loc)).addr = a)
    (hm : channelMode s c = .esi) (hi : installed s loc = true) (hb : wordBad s loc = false) (hd : installed s a = true)
    (hne : loc ≠ a) :
    inputTransfer c s = .next (inputEnd c (bcwUpdate (wordAt s loc)).done s
      (if halfBad s a false then request (.ioDataParity c) (inputStored c s) else inputStored c s)) := by
  subst hloc ha
  have hbad : halfBad (agentStore (bcwLocation true c s) .whole (bcwUpdate (wordAt s (bcwLocation true c s))).next s)
      (bcwUpdate (wordAt s (bcwLocation true c s))).addr false = halfBad s (bcwUpdate (wordAt s (bcwLocation true c s))).addr false := by
    rw [agentStore_parity (bcwLocation true c s) .whole _ s]
    simp [hne.symm]
  unfold inputTransfer inputEnd inputStored
  simp only [hm, hi, hb, hd, testReadBad, hbad, Bool.not_true, Bool.false_eq_true, if_false]
  split
  · split <;> rfl
  · rfl

/-- The half beside the stored one keeps its parity. -/
theorem inputStored_lower {loc a : Addr} (hloc : bcwLocation true c s = loc) (ha : (bcwUpdate (wordAt s loc)).addr = a)
    (hne : loc ≠ a) : halfBad (inputStored c s) a false = halfBad s a false := by
  subst hloc ha
  unfold inputStored
  rw [agentStore_parity, agentStore_parity]
  simp [hne.symm, covers]

theorem ReportedBeside.inputEnd (h : ReportedBeside x u t) (c : Fin 24) (done : Bool) (s : State) :
    ReportedBeside x (inputEnd c done s u) (inputEnd c done s t) := by
  have hack := (h.putChan c fun v => { v with idr := false }).emit (.inputAck c)
  have hoff := hack.putChan c fun v => { v with inActive := false }
  exact .ite _ (.ite _ (hoff.request _) hoff) hack

theorem inputEnd_parity (c : Fin 24) (done : Bool) (s t : State) : (inputEnd c done s t).parity = t.parity := by
  unfold inputEnd
  simp only []
  split
  · split
    · exact request_parity _ _
    · rfl
  · rfl

/-- A half-word beside one of wrong parity is stored, and the other half reported. -/
theorem inputTransfer_reported {loc a : Addr} (hloc : bcwLocation true c s = loc) (ha : (bcwUpdate (wordAt s loc)).addr = a)
    (hm : channelMode s c = .esi) (hi : installed s loc = true) (hb : wordBad s loc = false) (hd : installed s a = true)
    (hne : loc ≠ a) (hbad : halfBad s a false = true) :
    Answers (inputTransfer c (s.setParity (mendHalf s.parity a false))) fun u => Answers (inputTransfer c s) fun t =>
      ReportedBeside (.ioDataParity c) u t ∧ halfBad t a false = true := by
  have hmend := setParity_mended a .lower s
  have hgood : halfBad (s.setParity (mendHalf s.parity a false)) a false = false := (hmend a false).trans (by simp [covers])
  have hu := inputTransfer_stored (s := s.setParity (mendHalf s.parity a false)) hloc ha hm hi ((hmend.wordBad_ne hne).trans hb) hd hne
  have ht := inputTransfer_stored hloc ha hm hi hb hd hne
  rw [if_neg (ne_true_of_eq_false hgood)] at hu
  rw [if_pos hbad] at ht
  have hstored : ReportedBeside (.ioDataParity c) (inputStored c (s.setParity (mendHalf s.parity a false)))
      (request (.ioDataParity c) (inputStored c s)) := reportedBeside_request _ _ (inputStored c s)
  refine ⟨_, hu, _, ht, hstored.inputEnd c _ s, ?_⟩
  rw [halfBad, inputEnd_parity, request_parity]
  exact (inputStored_lower hloc ha hne).trans hbad

end

/-- Settles O36: a reference to wrong parity ends the instruction in the entry of Memory Parity before anything else is done, and a
transfer with wrong parity differs from the one with right parity in the request alone. -/
theorem wrongParityIsReported : Obligations.WrongParityIsReported := by
  unfold Obligations.WrongParityIsReported
  refine ⟨?_, ?_, ?_, ?_⟩
  · intro j k b y s hk o a hi hb hl i hmem
    have hstops : StopsWithOperand i := by
      have hclasses : i ∈ readClass ++ replaceClass.map Prod.fst := hmem
      rcases List.mem_append.mp hclasses with hread | hreplace
      · exact stopsWithOperand_of_readClass i hread
      · obtain ⟨p, hp, rfl⟩ := List.mem_map.mp hreplace
        exact (replaces_of_mem p hp).stopsWithOperand
    rw [hstops j k b y s _ hk (readNoted_bad hi hb hl)]
    exact ⟨operandParity_faultAt, operandParity_faultedInRepeat⟩
  · intro j k b y s hk hr o d v hi hb hl
    rw [storeA_bad j hk hi hb hl]
    exact storeParity_faultAt d (partOf k) v hr
  · intro s hin hrun hf hr htime hdue hi hb
    rw [step_fetch_bad hin hrun hf hr htime hdue hi hb]
    exact fetchParity_faultAt s.pc hr
  · intro c s esi asked place failed reported
    have hmode : (¬ esi → (s.chans[c]).outDone = false) → channelMode s c = .isi → (chan s c).outDone = false :=
      fun h hm => h ((isi_iff_not_esi _).mp hm)
    refine ⟨?_, ?_, ?_, ?_⟩
    · intro loc hi hb
      obtain ⟨hout, hchan⟩ := bcwParityError_channel true c loc s
      refine ⟨_, inputTransfer_bcw_bad (bcwLocation_input c s) hi hb, bcwParityError_failed true c loc s, fun he => ?_, fun he => ?_⟩
      · rw [show channelMode s c = .esi from he] at hout hchan
        exact ⟨hout, hchan⟩
      · rw [(isi_iff_not_esi _).mpr he] at hout hchan
        exact ⟨hout, hchan⟩
    · intro loc hm hi hb
      obtain ⟨hout, hchan⟩ := bcwParityError_channel false c loc s
      refine ⟨_, outputTransfer_bcw_bad (bcwLocation_output c s) (hmode hm) hi hb, bcwParityError_failed false c loc s, hout,
        fun he => ?_, fun he => ?_⟩
      · rw [show channelMode s c = .esi from he] at hchan
        exact hchan
      · rw [(isi_iff_not_esi _).mpr he] at hchan
        exact hchan
    · intro loc a hm hi hb hd hne hr hbad
      exact outputTransfer_reported (bcwLocation_output c s) rfl (hmode hm) hi hb hd hne hr hbad
    · intro loc a he hi hb hd hne hbad
      exact inputTransfer_reported (bcwLocation_input c s) rfl he hi hb hd hne hbad

end Sys2Proof.Machine
end

section
/-! The encoder and the decoder are inverse (30_encoding.md R141 to R144, R186): in each of the three formats a word is made of its fields,
and each code selects one row of the tables. -/

namespace Sys2Proof

/-! ## A word is made of its fields -/

/-- Two adjacent fields are the field over both: the library's rule with the lower position and the two widths given. -/
theorem join_fields (w : Word) (s m n : Nat) : w.extractLsb' (s + n) m ++ w.extractLsb' s n = w.extractLsb' s (m + n) :=
  BitVec.extractLsb'_append_extractLsb'_eq_extractLsb' rfl

/-- The fields of a normal word (R141). -/
theorem normalWord_fields (w : Word) : normalWord (fieldF w) (fieldJ w) (fieldK w) (fieldB w) (fieldY w) = w := by
  unfold normalWord fieldF fieldJ fieldK fieldB fieldY
  rw [join_fields w 21 6 3, join_fields w 18 9 3, join_fields w 15 12 3, join_fields w 0 15 15, extract_all]

/-- The fields of an I/O word (R143). -/
theorem ioWord_fields (w : Word) : ioWord (fieldF w) (fieldJHat w) (fieldKHat w) (fieldB w) (fieldY w) = w := by
  unfold ioWord fieldF fieldJHat fieldKHat fieldB fieldY
  rw [join_fields w 20 6 4, join_fields w 18 10 2, join_fields w 15 12 3, join_fields w 0 15 15, extract_all]

/-- The fields of a 77 word (R142). -/
theorem word77_fields {w : Word} (h : fieldF w = 63#6) : word77 (fieldG w) (fieldB w) (fieldY w) = w := by
  unfold word77
  rw [← h]
  unfold fieldF fieldG fieldB fieldY
  rw [join_fields w 18 6 6, join_fields w 15 12 3, join_fields w 0 15 15, extract_all]

/-! ## Decoding an encoded instruction -/

/-- The code 77 leads to the second table (R142). -/
theorem decode_of_code77 {w : Word} (h : fieldF w = 63#6) : decode w = decode77 w := by
  unfold decode; rw [h]; rfl

/-- A code that selects a constructor of the normal format decodes a normal word to it. -/
theorem decode_normalWord {f : BitVec 6} {c : BitVec 3 → BitVec 3 → BitVec 3 → BitVec 15 → Instr}
    (h : ∀ w, fieldF w = f → decode w = c (fieldJ w) (fieldK w) (fieldB w) (fieldY w)) (j k b : BitVec 3) (y : BitVec 15) :
    decode (normalWord f j k b y) = c j k b y := by
  rw [h _ (fieldF_normalWord f j k b y), fieldJ_normalWord, fieldK_normalWord, fieldB_normalWord, fieldY_normalWord]

/-- The same for the I/O format. -/
theorem decode_ioWord {f : BitVec 6} {c : BitVec 4 → BitVec 2 → BitVec 3 → BitVec 15 → Instr}
    (h : ∀ w, fieldF w = f → decode w = c (fieldJHat w) (fieldKHat w) (fieldB w) (fieldY w)) (jh : BitVec 4) (kh : BitVec 2) (b : BitVec 3)
    (y : BitVec 15) : decode (ioWord f jh kh b y) = c jh kh b y := by
  rw [h _ (fieldF_ioWord f jh kh b y), fieldJHat_ioWord, fieldKHat_ioWord, fieldB_ioWord, fieldY_ioWord]

/-- The same for the 77 words. -/
theorem decode_word77 {g : BitVec 6} {c : BitVec 3 → BitVec 15 → Instr}
    (h : ∀ w, fieldG w = g → decode77 w = c (fieldB w) (fieldY w)) (b : BitVec 3) (y : BitVec 15) :
    decode (word77 g b y) = c b y := by
  rw [decode_of_code77 (fieldF_word77 g b y), h _ (fieldG_word77 g b y), fieldB_word77, fieldY_word77]

theorem decode_encode (i : Instr) : decode (encode i) = i := by
  cases i
  case sendExternalFunction | storeChannel | jumpActiveInput | jumpActiveOutput | terminateInput | terminateOutput | activateInput
      | activateOutput | activateInputMonitor | activateOutputMonitor =>
    exact decode_ioWord (fun _ h => by unfold decode; rw [h]; rfl) ..
  case illegal00 | rightShiftQ | rightShiftA | rightShiftAq | compare | leftShiftQ | leftShiftA | leftShiftAq | enterQ | enterA |
      enterB | storeQ | storeA | storeB | addA | subtractA | multiply | divide | replaceAPlusY | replaceAMinusY | addQ | subtractQ
      | enterYPlusQ | enterYMinusQ | storeAPlusQ | storeAMinusQ | replaceYPlusQ | replaceYMinusQ | replaceYPlus1 | replaceYMinus1
      | enterLp | addLp | subtractLp | compareMasked | replaceLp | replaceAPlusLp | replaceAMinusLp | storeLp | selectiveSet |
      selectiveComplement | selectiveClear | selectiveSubstitute | replaceSelectiveSet | replaceSelectiveComplement |
      replaceSelectiveClear | replaceSelectiveSubstitute | jumpArithmetic | jumpManual | returnJumpArithmetic | returnJumpManual |
      repeatInstr | bSkip | bJump =>
    exact decode_normalWord (fun _ h => by unfold decode; rw [h]; rfl) ..
  all_goals exact decode_word77 (fun _ h => by unfold decode77; rw [h]; rfl) ..

/-! ## Encoding a decoded word -/

theorem encode_decode77 {w : Word} (h : fieldF w = 63#6) : encode (decode77 w) = w := by
  have fields : ∀ n, (fieldG w).toNat = n → word77 (BitVec.ofNat 6 n) (fieldB w) (fieldY w) = w := by
    rintro _ rfl
    rw [BitVec.ofNat_toNat, BitVec.setWidth_eq]
    exact word77_fields h
  obtain ⟨n, hn⟩ : ∃ n, (fieldG w).toNat = n := ⟨_, rfl⟩
  have hlt : n < 64 := hn ▸ (fieldG w).isLt
  unfold decode77
  rw [hn]
  interval_cases n
  all_goals exact fields _ hn

/-- The I/O codes, whose words are of the I/O format (30_encoding.md R143, R172). -/
def ioCodes : List (BitVec 6) := [0o13#6, 0o17#6, 0o62#6, 0o63#6, 0o66#6, 0o67#6, 0o73#6, 0o74#6, 0o75#6, 0o76#6]

/-- Outside the second table the code selects the format that its fields are written back in. -/
theorem encode_decode_by_format {w : Word} (h : fieldF w ≠ 63#6) :
    encode (decode w) = if fieldF w ∈ ioCodes then ioWord (fieldF w) (fieldJHat w) (fieldKHat w) (fieldB w) (fieldY w)
      else normalWord (fieldF w) (fieldJ w) (fieldK w) (fieldB w) (fieldY w) := by
  obtain ⟨n, hn⟩ : ∃ n, (fieldF w).toNat = n := ⟨_, rfl⟩
  have hf : fieldF w = BitVec.ofNat 6 n := by rw [← hn, BitVec.ofNat_toNat, BitVec.setWidth_eq]
  have hlt : n < 63 := by
    have := (fieldF w).isLt
    have hne : (fieldF w).toNat ≠ 63 := fun e => h (BitVec.eq_of_toNat_eq e)
    omega
  unfold decode
  rw [hn, hf]
  clear hn hf h
  interval_cases n
  all_goals rfl

theorem encode_decode (w : Word) : encode (decode w) = w := by
  by_cases h : fieldF w = 63#6
  · rw [decode_of_code77 h, encode_decode77 h]
  · rw [encode_decode_by_format h]
    split
    · exact ioWord_fields w
    · exact normalWord_fields w

/-- Settles O53: each format gives back its fields, and each code its row of the tables. -/
theorem decodeAndEncodeAgree : Obligations.DecodeAndEncodeAgree := ⟨decode_encode, encode_decode⟩

end Sys2Proof
end

section
/-! What is a value of A and Q alone does not see the rest of the state: the results of the Replace and store classes (30_encoding.md R156,
R157), and the skip conditions, which are on the final registers (30_encoding.md R160). -/

namespace Sys2Proof.Machine

open Sys2Proof

/-- A value of A and Q alone. -/
def OfRegisters {α : Type} (f : State → α) : Prop := ∀ s t, t.a = s.a → t.q = s.q → f t = f s

theorem skipNormal_ofRegisters (j : BitVec 3) : OfRegisters (skipNormal j) := by
  intro s t ha hq
  unfold skipNormal
  rw [ha, hq]

theorem skipLp_ofRegisters (j : BitVec 3) : OfRegisters (skipLp j) := by
  intro s t ha _
  unfold skipLp
  rw [ha]

section

variable {s t u : State}

/-- The condition tested before the skip is the condition on the registers after it. -/
theorem OfRegisters.pc_skipIf {c : State → Bool} (h : OfRegisters c) (hpc : u.pc = s.pc) :
    (skipIf (c u) u).pc = pcAfter s (c (skipIf (c u) u)) := by
  rw [skipIf_pc, h u (skipIf (c u) u) (skipIf_a _ _) (skipIf_q _ _)]
  unfold pcAfter
  rw [hpc]

theorem controlKept_congr (h : u.ctl = t.ctl) : ControlKept s u ↔ ControlKept s t := by
  unfold ControlKept; rw [h]

end

end Sys2Proof.Machine
end

section
/-! The Replace class and the store class: the result, where it is stored, and what else stays (30_encoding.md R156, R157). -/

namespace Sys2Proof.Machine

open Sys2Proof

section

variable {i : BitVec 3 → BitVec 3 → BitVec 3 → BitVec 15 → Instr}

/-! ## The Replace class -/

/-- A Replace-class instruction with a result and a skip of A and Q completes. -/
theorem completesReplace {f : State → Word → Word} {skip : BitVec 3 → State → Bool} (hskip : ∀ j, OfRegisters (skip j))
    (hf : OfRegisters f) (hi : ∀ j k b y s, exec (i j k b y) s =
      (replaceOperand k b y f s).andThen fun _ t => .next (skipIf (skip j t) t)) :
    CompletesReplace i f skip := by
  intro j k b y s hk hr hw r d
  have hnote : KeptButMemory s ((noteStorage b y s).setA r) ∧ ∀ x, wordAt ((noteStorage b y s).setA r) x = wordAt s x :=
    noteStorage_keptButMemory b y s
  have hstore : replaceOperand k b y f s = .ok () (storeWord d (partOf k) r ((noteStorage b y s).setA r)) := by
    rw [replaceOperand_ok f k b y s hk hr hw, ← operandValue_replace k b y s hk, hf s _ (noteStorage_a b y s) (noteStorage_q b y s)]
  obtain ⟨hword, hother, hkept⟩ :=
    storeWord_frame d (partOf k) r _ s (skip j (storeWord d (partOf k) r ((noteStorage b y s).setA r))) hnote
  refine ⟨_, by rw [hi, hstore, Res.andThen_ok], by simp, by simp, (hskip j).pc_skipIf (by simp), hword, hother,
    storeWord_parityStored d (partOf k) r _ s _ (noteStorage_parity b y s), ?_, hkept⟩
  exact (controlKept_congr (by simp)).2 (noteStorage_controlKept b y s)

end

/-- Settles O9: the thirteen are the Replace class of their results, 44 with its own skip column. -/
theorem replaceClassCompletes : Obligations.ReplaceClassCompletes := by
  unfold Obligations.ReplaceClassCompletes
  refine ⟨?_, ?_, ?_, ?_, ?_, ?_, ?logicalProduct, ?_, ?_, ?_, ?_, ?_, ?_⟩
  case logicalProduct => exact completesReplace skipLp_ofRegisters (fun _ _ _ hq => by simp only [hq]) fun _ _ _ _ _ => rfl
  all_goals exact completesReplace skipNormal_ofRegisters (fun _ _ ha hq => by simp only [ha, hq]) fun _ _ _ _ _ => rfl

/-! ## The store class -/

section

variable {i : BitVec 3 → BitVec 3 → BitVec 3 → BitVec 15 → Instr}

/-- A store-class instruction with a storage destination that stores a value of the registers and leaves A as `fa` says. -/
theorem completesStore {useK : BitVec 3 → Bool} {value fa : State → Word} {onDeny : State → State → State}
    (hi : ∀ j k b y s, storageK k = true → useK k = true → exec (i j k b y) s =
      (storeOperand k b y (value s) (onDeny s) (s.setA (fa s))).andThen fun _ t => endNormal j t) :
    CompletesStore i useK value fa := by
  intro j k b y s hk huse hw d v
  have hsame := sameAddressing_setA s (fa s)
  have haddr : opAddr b y (s.setA (fa s)) = opAddr b y s := opAddr_congr hsame b y
  have hw' : canWrite (opAddr b y (s.setA (fa s))) 0 (partOf k) (s.setA (fa s)) = true := by
    rw [haddr, canWrite_congr hsame rfl rfl, hw]
  have hnote : KeptButMemory s ((noteStorage b y s).setA (fa s)) ∧ ∀ x, wordAt ((noteStorage b y s).setA (fa s)) x = wordAt s x :=
    noteStorage_keptButMemory b y s
  have hstore : storeOperand k b y (value s) (onDeny s) (s.setA (fa s)) =
      .ok () (storeWord d (partOf k) v ((noteStorage b y s).setA (fa s))) := by
    rw [storeOperand_ok k b y _ _ _ hw', haddr, noteStorage_setA]
    simp only [complementK_iff hk, v, d]
  obtain ⟨hword, hother, hkept⟩ :=
    storeWord_frame d (partOf k) v _ s (skipNormal j (storeWord d (partOf k) v ((noteStorage b y s).setA (fa s)))) hnote
  exact ⟨_, by rw [hi j k b y s hk huse, hstore, Res.andThen_ok, endNormal], hword, hother,
    storeWord_parityStored d (partOf k) v _ s _ (noteStorage_parity b y s), by simp, by simp,
    (skipNormal_ofRegisters j).pc_skipIf (by simp), by simp, hkept⟩

/-- A store-class instruction with k = 0 or 4, which leaves A and Q as `fa` and `fq` say. -/
theorem completesInRegisters {fa fq : BitVec 3 → State → Word}
    (hi : ∀ j k b y s, storageK k = false →
      exec (i j k b y) s = endNormal j (((captureUnused b y s).setA (fa k s)).setQ (fq k s))) :
    CompletesInRegisters i fa fq := by
  intro j k b y s hk
  obtain ⟨hkept, -, -, -, hctl⟩ := captureUnused_frame b y s
  refine ⟨_, by rw [hi j k b y s hk, endNormal], by simp, by simp, (skipNormal_ofRegisters j).pc_skipIf (by simp), ?_,
    skipIf_kept _ (setQ_kept _ (setA_kept _ hkept))⟩
  exact (controlKept_congr (by simp)).2 hctl

/-- Where k names storage the third of the three meanings is taken. -/
theorem ite_of_storageK {α : Type} {k : BitVec 3} (h : storageK k = true) (x y z : α) :
    (if k = 0#3 then x else if k = 4#3 then y else z) = z := by
  simp only [storageK, Bool.and_eq_true, bne_iff_ne] at h
  obtain ⟨h0, h4⟩ := h
  rw [if_neg h0, if_neg h4]

theorem storageK_eq_false {k : BitVec 3} (h : storageK k = false) : k = 0#3 ∨ k = 4#3 := by revert k; decide

/-- A or Q that takes its own value is not written. -/
theorem captureUnused_self (b : BitVec 3) (y : BitVec 15) (s : State) :
    (captureUnused b y s).setA s.a = captureUnused b y s ∧ ∀ v, ((captureUnused b y s).setA v).setQ s.q = (captureUnused b y s).setA v := by
  constructor
  · exact congrArg (captureUnused b y s).setA (captureUnused_a b y s).symm
  · exact fun v => congrArg ((captureUnused b y s).setA v).setQ (captureUnused_q b y s).symm

/-- 32 and 33 with k = 0 or 4. -/
theorem storeResult_inRegisters (r : Word) (j k b : BitVec 3) (y : BitVec 15) (s : State) (hk : storageK k = false) :
    storeResult r j k b y s = endNormal j (((captureUnused b y s).setA r).setQ (if k = 0#3 then r else s.q)) := by
  obtain ⟨-, hq⟩ := captureUnused_self b y s
  rcases storageK_eq_false hk with rfl | rfl
  · rfl
  · exact congrArg (endNormal j) (hq r).symm

end

/-- Settles O10: each instruction is of the store class where k names storage, and writes A or Q where it does not. -/
theorem storeClassCompletes : Obligations.StoreClassCompletes := by
  unfold Obligations.StoreClassCompletes
  refine ⟨⟨?_, ?_, ?_, ?_, ?lp⟩, ?storeQ, ?storeA, ?_, ?_, ?storeLp⟩
  case lp =>
    exact completesStore (onDeny := fun _ => id) fun _ _ _ _ _ hk huse =>
      (if_neg (by simpa using huse)).trans (ite_of_storageK hk _ _ _)
  case storeQ | storeA | storeLp =>
    refine completesInRegisters fun j k b y s hk => ?_
    obtain ⟨ha, hq⟩ := captureUnused_self b y s
    rcases storageK_eq_false hk with rfl | rfl <;> simp [exec, execStoreQ, execStoreA, execStoreLp, ha, hq]
  · exact completesStore (onDeny := fun _ => id) fun _ _ _ _ _ hk _ => ite_of_storageK hk _ _ _
  · exact completesStore (onDeny := fun _ => id) fun _ _ _ _ _ hk _ => ite_of_storageK hk _ _ _
  · exact completesStore (onDeny := fun s => eitherA s.a) fun _ _ _ _ _ hk _ => ite_of_storageK hk _ _ _
  · exact completesStore (onDeny := fun s => eitherA s.a) fun _ _ _ _ _ hk _ => ite_of_storageK hk _ _ _
  · exact completesInRegisters fun j k b y s hk => storeResult_inRegisters _ j k b y s hk
  · exact completesInRegisters fun j k b y s hk => storeResult_inRegisters _ j k b y s hk

end Sys2Proof.Machine
end

section
/-! The guard mode check, which every privileged meaning makes first (30_encoding.md R172), and the stops named where the manual gives no
effect (93_implementation_defined.md U1, U6, U7, U12). -/

namespace Sys2Proof.Machine

open Sys2Proof

section

variable {s : State} {w : Word}

/-! ## Privilege -/

theorem privileged_guarded (h : guardOn s = true) (k : Result) : privileged s k = raise .illegalInstruction none s := if_pos h

theorem privileged_unguarded (h : Unguarded s) (k : Result) : privileged s k = k := if_neg (ne_true_of_eq_false h)

/-- The codes of the privileged 77 words (30_encoding.md R172). -/
def privileged77 : List (BitVec 6) :=
  [0o60#6, 0o61#6, 0o62#6, 0o63#6, 0o64#6, 0o65#6, 0o66#6, 0o67#6, 0o70#6, 0o72#6, 0o73#6, 0o74#6, 0o76#6, 0o77#6]

theorem privilegedWord_iff (w : Word) :
    privilegedWord w = true ↔ fieldF w ∈ ioCodes ∨ fieldF w = 63#6 ∧ fieldG w ∈ privileged77 := by
  simp only [privilegedWord, Bool.or_eq_true, Bool.and_eq_true, List.contains_iff_mem, beq_iff_eq]
  rfl

theorem exec_ioCode_guarded (h : fieldF w ∈ ioCodes) (hg : guardOn s = true) :
    exec (decode w) s = raise .illegalInstruction none s := by
  simp only [ioCodes, List.mem_cons, List.not_mem_nil, or_false] at h
  unfold decode
  rcases h with h | h | h | h | h | h | h | h | h | h
  all_goals rw [h]; exact privileged_guarded hg _

theorem exec_code77_guarded (hf : fieldF w = 63#6) (h : fieldG w ∈ privileged77) (hg : guardOn s = true) :
    exec (decode w) s = raise .illegalInstruction none s := by
  simp only [privileged77, List.mem_cons, List.not_mem_nil, or_false] at h
  rw [decode_of_code77 hf]
  unfold decode77
  rcases h with h | h | h | h | h | h | h | h | h | h | h | h | h | h
  all_goals rw [h]; exact privileged_guarded hg _

/-- Illegal Instruction taken outside a Repeat sequence changes nothing but what every entry changes (60_exceptions.md R541, R551). -/
theorem raise_illegalInstruction (h : s.rep.active = false) :
    Answers (raise .illegalInstruction none s) fun t =>
      EnteredFault 0#15 s t ∧ IfrEntered s t ∧ SameMemory s t ∧ t.a = s.a ∧ t.q = s.q := by
  obtain ⟨hentered, hifr, ha, hq, hmem, hpending, hsel⟩ := enter_frame (.uncond .illegalInstruction) none s h
  refine ⟨_, rfl, ⟨hentered, ?_⟩, hifr, hmem, ha, hq⟩
  rw [hsel, hpending]
  exact ⟨rfl, rfl, rfl, rfl, rfl⟩

end

/-- Settles O41: each of R172's codes decodes to a meaning that makes the guard mode check first. -/
theorem privilegedWordsTrapInGuardMode : Obligations.PrivilegedWordsTrapInGuardMode := by
  unfold Obligations.PrivilegedWordsTrapInGuardMode
  intro w s hw hactive hbit hrep
  have hg : guardOn s = true := by rw [guardOn, hactive, hbit]; rfl
  have hexec : exec (decode w) s = raise .illegalInstruction none s := by
    rcases (privilegedWord_iff w).1 hw with hf | ⟨hf, hgm⟩
    · exact exec_ioCode_guarded hf hg
    · exact exec_code77_guarded hf hgm hg
  rw [hexec]
  exact raise_illegalInstruction hrep

/-! ## Unassigned codes (30_encoding.md R171) -/

theorem noOperation_answers (b : BitVec 3) (y : BitVec 15) (s : State) :
    Answers (noOperation b y s) fun t => t.a = s.a ∧ t.q = s.q ∧ t.pc = s.pc ∧ ControlKept s t ∧ Kept s t := by
  obtain ⟨hkept, ha, hq, hpc, hctl⟩ := captureUnused_frame b y s
  exact ⟨_, rfl, ha, hq, hpc, hctl, hkept⟩

/-- Settles O33: the ten codes are no operation, seven of them behind the guard mode check. -/
theorem unassignedCodesComplete : Obligations.UnassignedCodesComplete := by
  unfold Obligations.UnassignedCodesComplete
  intro plain s
  have hplain : ∀ i : BitVec 3 → BitVec 15 → Instr, (∀ b y, exec (i b y) s = noOperation b y s) → plain i s :=
    fun i hi b y => hi b y ▸ noOperation_answers b y s
  refine ⟨⟨hplain _ fun _ _ => rfl, hplain _ fun _ _ => rfl, hplain _ fun _ _ => rfl⟩, fun hu => ⟨?_, ?_, ?_, ?_, ?_, ?_, ?_⟩⟩
  all_goals exact hplain _ fun _ _ => privileged_unguarded hu _

/-! ## Named stops -/

section

variable {s : State} {k b : BitVec 3} {y : BitVec 15}

theorem plainJHat_refused {jh : BitVec 4} (h : jh ≠ 0#4) (o : Result) : plainJHat jh o = .refused .forbiddenDesignator :=
  if_neg (by simpa [zeroJHat] using h)

theorem replaceOperand_refused (f : State → Word → Word) (h : replaceK k = false) :
    replaceOperand k b y f s = .stop (.refused .forbiddenDesignator) := if_neg (ne_true_of_eq_false h)

theorem Replaces.refused {i : BitVec 3 → BitVec 3 → BitVec 3 → BitVec 15 → Instr} {g : Word → Word → Word → Word} (hi : Replaces i g)
    (j : BitVec 3) (hk : replaceK k = false) : exec (i j k b y) s = .refused .forbiddenDesignator := by
  obtain ⟨skip, e⟩ := hi j
  exact (e k b y s).trans (andThen_of_stop (replaceOperand_refused _ hk))

theorem countOf_refused {low : BitVec 6} (h : 59 < low.toNat) : countOf low s = .stop (.refused .shiftCountAbove59) :=
  if_neg (by omega)

theorem shiftNormal_refused (f : Nat → State → State) (j : BitVec 3) (h : operandReadable k b y s = true)
    (hn : 59 < (operandValue k b y s).toNat % 64) : shiftNormal f j k b y s = .refused .shiftCountAbove59 := by
  have hcount : 59 < ((operandValue k b y s).setWidth 6).toNat := by simpa using hn
  rw [shiftNormal, readOperand_ok k b y s h, Res.bind_ok, countOf_refused hcount, Res.andThen_stop]

theorem shiftLogical_refused (f : Nat → State → State) (hn : 59 < (effective b y s).toNat % 64) :
    shiftLogical f b y s = .refused .shiftCountAbove59 := by
  have hcount : 59 < ((effective b y s).setWidth 6).toNat := by simpa using hn
  simp only [shiftLogical, dataOperand, Res.bind_ok, countOf_refused hcount, Res.andThen_stop]

/-- A read beyond the installed storage that the limits allow (20_memory.md R83). -/
theorem readNoted_absent (h : s.ctl.newIfr = .settled) (hp : readProtected s = false) (hi : installed s (opAddr b y s).base = false) :
    readNoted b y s = .stop (.fault .storageNotInstalled) := by
  obtain ⟨hread, -, -, -⟩ := modes_capture (opAddr b y s).base s
  have hi' : installed (capture (opAddr b y s).base s) (opAddr b y s).base = false := by simpa [installed] using hi
  simp only [readNoted, noteStorage_settled h, readAt, hread, hp, Bool.and_false, Bool.false_and, Bool.false_eq_true, if_false,
    OpAddr.word_zero, cpuRead, hi']

theorem withChannel_none {n : BitVec 5} (h : channelOf s.cfg n = none) : withChannel n s = .stop (.fault .channelNotFitted) := by
  unfold withChannel; rw [h]

end

/-- Settles O43: every stop stands before anything else that the instruction could answer. -/
theorem stopsAreNamed : Obligations.StopsAreNamed := by
  unfold Obligations.StopsAreNamed
  refine ⟨?replace, ?seven, ?jHat, ?kHat, ?count, ?logicalCount, ?absent, ?notFitted⟩
  case replace =>
    have hreplace : ∀ i ∈ replaceClass.map Prod.fst, ∀ j k b y s, k = 0#3 ∨ k = 4#3 ∨ k = 7#3 →
        exec (i j k b y) s = .refused .forbiddenDesignator := by
      intro i hi j k b y s hk
      obtain ⟨p, hp, rfl⟩ := List.mem_map.1 hi
      exact (replaces_of_mem p hp).refused j (by rcases hk with rfl | rfl | rfl <;> rfl)
    exact hreplace
  case seven =>
    simp only [List.forall_mem_cons]
    refine ⟨?_, ?_, ?_, ?_, ?_, nofun⟩
    all_goals exact fun _ _ _ _ => rfl
  case jHat =>
    simp only [List.forall_mem_cons]
    refine ⟨?_, ?_, ?_, ?_, ?_, ?_, nofun⟩
    all_goals exact fun _ _ _ _ _ hu hj => (privileged_unguarded hu _).trans (plainJHat_refused hj _)
  case kHat => exact fun _ _ _ _ hu hk => (privileged_unguarded hu _).trans (if_neg hk)
  case count =>
    simp only [List.forall_mem_cons]
    refine ⟨?_, ?_, ?_, ?_, ?_, ?_, nofun⟩
    all_goals exact fun j _ _ _ _ h hn => shiftNormal_refused _ j h hn
  case logicalCount =>
    simp only [List.forall_mem_cons]
    refine ⟨?_, ?_, ?_, nofun⟩
    all_goals exact fun _ _ _ hn => shiftLogical_refused _ hn
  case absent =>
    exact fun j _ _ _ hp h hi => StopsWithOperand.read (fun _ _ _ _ _ => rfl) j 3#3 _ _ _ _ rfl (readNoted_absent h hp hi)
  case notFitted => exact fun _ _ _ _ _ hu hc => (privileged_unguarded hu _).trans (andThen_of_stop (withChannel_none hc))

end Sys2Proof.Machine
end

section
/-! The index addition (30_encoding.md R150 to R152). -/

namespace Sys2Proof.Machine

open Sys2Proof

/-- An end-around sum is zero only where the sum is. -/
theorem endAround_eq_zero_iff (n x : Nat) : endAround n x = 0 ↔ x = 0 := by
  unfold endAround
  constructor
  · intro h
    have hx := Nat.mod_add_div x (2 ^ n)
    rw [(Nat.add_eq_zero_iff.1 h).1, (Nat.add_eq_zero_iff.1 h).2] at hx
    simpa using hx.symm
  · rintro rfl
    simp

/-- The end-around sum of a y of 15 bits and a register of the width n stays within n bits: the carry out adds at most 1, and only to a
sum that has left room for it. -/
theorem endAround_lt {n y v : Nat} (hn : n = 15 ∨ n = 17) (hy : y < 2 ^ 15) (hv : v < 2 ^ n) : endAround n (y + v) < 2 ^ n := by
  unfold endAround
  rcases hn with rfl | rfl <;> omega

section

variable (b : BitVec 3) (y : BitVec 15) (s : State)

theorem bRead_zero : bRead 0#3 s = 0 := by
  unfold bRead bReadIn cutTo
  split <;> rfl

theorem indexSum_toNat : (indexSum b y s).toNat = endAround (ybarWidth b s) (y.toNat + (bRead b s).toNat) ∧
    (indexSum b y s).toNat < 2 ^ ybarWidth b s := by
  have hn : ybarWidth b s = 15 ∨ ybarWidth b s = 17 := bWidth_cases _ _
  have hlt : endAround (ybarWidth b s) (y.toNat + (bRead b s).toNat) < 2 ^ ybarWidth b s := endAround_lt hn y.isLt (bReadIn_lt _ _ _)
  have hfit : 2 ^ ybarWidth b s ≤ 2 ^ 17 := Nat.pow_le_pow_right (by decide) (by omega)
  have hsum : (indexSum b y s).toNat = endAround (ybarWidth b s) (y.toNat + (bRead b s).toNat) := by
    rw [indexSum, BitVec.toNat_ofNat, Nat.mod_eq_of_lt (hlt.trans_le hfit)]
  exact ⟨hsum, hsum ▸ hlt⟩

theorem ybarWidth_eq : ybarWidth b s = if 4 ≤ b.toNat ∧ (bView s).wide = true then 17 else 15 := by
  simp only [ybarWidth, bWidth, Bool.and_eq_true, decide_eq_true_eq, and_comm]

end

/-- Settles O51: `ybar` is the end-around sum, which fits, and which is zero only where both terms are. -/
theorem indexSumIsEndAround : Obligations.IndexSumIsEndAround := by
  unfold Obligations.IndexSumIsEndAround
  refine ⟨fun b y s => ?_, rfl, rfl⟩
  intro n v
  have hn : ybarWidth b s = n := ybarWidth_eq b s
  have hv : (bRead b s).toNat = v := by
    by_cases h : b = 0#3
    · simp only [v, h, if_true, bRead_zero]; rfl
    · simp only [v, h, if_false]
  obtain ⟨hsum, hlt⟩ := indexSum_toNat b y s
  rw [hn, hv] at hsum
  rw [hn] at hlt
  refine ⟨hsum, hlt, ?_⟩
  have hb : b = 0#3 → v = 0 := fun h => if_pos h
  calc indexSum b y s = 0 ↔ (indexSum b y s).toNat = 0 := BitVec.toNat_inj.symm
    _ ↔ y.toNat + v = 0 := by rw [hsum, endAround_eq_zero_iff]
    _ ↔ y.toNat = 0 ∧ v = 0 := Nat.add_eq_zero_iff
    _ ↔ y = 0 ∧ (b = 0#3 ∨ v = 0) := and_congr (BitVec.toNat_inj (y := 0)) (or_iff_right_of_imp hb).symm

end Sys2Proof.Machine
end

section
/-! A step that runs one instruction (30_encoding.md R190, 60_exceptions.md R542): the fetch, the meaning, and the end. -/

namespace Sys2Proof.Machine

open Sys2Proof

/-- The operation `o` runs `i` on `u` and ends the instruction: what `exec` answers is passed on, and a next state in which the program
goes on is finished, unless a reinitiation that was waiting (`reinit`) still is (48_sequence.md R441). -/
def RunsAndEnds (o : Result) (reinit : Bool) (i : Instr) (u : State) : Prop :=
  (∀ t, exec i u = .next t →
    (t.fetch ≠ .program → o = .next t) ∧
    (t.fetch = .program → reinit = true → t.ctl.reinit = true → o = .fault .reinitiationNotFollowedByJump) ∧
    (t.fetch = .program → ¬ (reinit = true ∧ t.ctl.reinit = true) → o = .next (closeEntry (settleIfr t)))) ∧
  (∀ r, exec i u = .fault r → o = .fault r) ∧ (∀ r, exec i u = .refused r → o = .refused r)

section

variable {s : State}

theorem runInstr_runsAndEnds (i : Instr) (s : State) :
    RunsAndEnds (runInstr i s) s.ctl.reinit i ((s.setFetch .program).setOverlap []) := by
  refine ⟨fun t h => ?_, fun r h => ?_, fun r h => ?_⟩
  · have hrun : runInstr i s = finish s.ctl.reinit t := by unfold runInstr; rw [h]
    rw [hrun]
    unfold finish
    refine ⟨fun hf => if_pos hf, fun hf hr ht => ?_, fun hf hr => ?_⟩
    · simp [hf, hr, ht]
    · simp [hf, hr]
  · unfold runInstr; rw [h]
  · unfold runInstr; rw [h]

/-- In normal sequence the step runs the word at P with P advanced. -/
theorem step_program (hin : s.inputs = []) (hrun : s.run = true) (hf : s.fetch = .program) (hrep : s.rep.active = false)
    (htime : timeoutDue s = false) (hdue : dueInterrupt s = none) (hi : installed s s.pc = true) (hp : wordBad s s.pc = false)
    (hover : ∀ c ∈ s.overlap, c.1 ≠ s.pc) : step s = runInstr (decode (wordAt s s.pc)) (s.setPc (s.pc + 1)) := by
  have hread : cpuRead s.pc (s.setPc (s.pc + 1)) = .ok (wordAt s s.pc) (s.setPc (s.pc + 1)) := cpuRead_ok s.pc _ hi hp
  have hfetch : fetchedWord s.pc (wordAt s s.pc) (s.setPc (s.pc + 1)) = (wordAt s s.pc, s.setPc (s.pc + 1)) := by
    have hnone : s.overlap.find? (fun c => c.1 == s.pc) = none := List.find?_eq_none.2 (by simpa using hover)
    unfold fetchedWord
    rw [State.setPc_overlap, hnone]
  simp only [step, hin, cycle, hrun, hf, htime, hdue, runNext, hrep, runProgram, hread, hfetch, Res.andThen_ok, Bool.not_true,
    Bool.false_eq_true, if_false]

/-- In an interrupt's entrance the step runs the word at the fixed location with P as it is. -/
theorem step_fixed {n : BitVec 15} (hin : s.inputs = []) (hrun : s.run = true) (hf : s.fetch = .fixed n)
    (hi : installed s (fixedAddr s n) = true) (hp : wordBad s (fixedAddr s n) = false) :
    step s = runInstr (decode (wordAt s (fixedAddr s n))) s := by
  simp only [step, hin, cycle, hrun, hf, runFixed, cpuRead_ok _ s hi hp, Res.andThen_ok, Bool.not_true, Bool.false_eq_true, if_false]

end

/-- Settles O45: both fetches come to `runInstr`, whose end is that of every instruction. -/
theorem stepRunsDecodedInstruction : Obligations.StepRunsDecodedInstruction := by
  unfold Obligations.StepRunsDecodedInstruction
  intro s hin hrun runs
  constructor
  · intro hf hrep htime hdue hi hp hover
    have hu : ((s.setPc (s.pc + 1)).setFetch .program).setOverlap [] = (s.setPc (s.pc + 1)).setOverlap [] := by rw [← hf]; rfl
    have h := runInstr_runsAndEnds (decode (wordAt s s.pc)) (s.setPc (s.pc + 1))
    rw [hu, ← step_program hin hrun hf hrep htime hdue hi hp hover] at h
    exact h
  · intro n hf a hi hp
    have h := runInstr_runsAndEnds (decode (wordAt s (fixedAddr s n))) s
    rw [← step_fixed hin hrun hf hi hp] at h
    exact h

end Sys2Proof.Machine
end

section
/-! Words of the encoding tables (30_encoding.md R141 to R143). -/

namespace Sys2Proof

/-- Settles O60: each word is the encoding of its instruction. -/
theorem decodeWordsFromTheTables : Obligations.DecodeWordsFromTheTables :=
  ⟨decode_encode (.addA 0#3 3#3 0#3 0o1000#15), decode_encode (.enterA 1#3 0#3 0#3 0o5#15),
    decode_encode (.returnJumpArithmetic 1#3 0#3 0#3 0o3000#15), decode_encode (.sendExternalFunction 0#4 3#2 0#3 0o12345#15),
    decode_encode (.activateOutput 1#4 3#2 0#3 0o34567#15), decode_encode (.enterCsr 0#3 0o27654#15),
    decode_encode (.enterB7Jump 0#3 0o100#15), decode_encode (.repeatInstr 1#3 0#3 0#3 0o3#15)⟩

end Sys2Proof
end

section
/-! The shifts (40_shift.md): each rewrites A, Q or AQ by a function of the count, so its frame is proved once for all of them, and what is
left of an instruction is the bits of its register. -/

namespace Sys2Proof.Machine

open Sys2Proof

/-! ## A shift writes A and Q, from A and Q -/

/-- An update that writes no more than A and Q, with values of A and Q alone. -/
structure ShiftsRegisters (f : State → State) : Prop where
  a_ofRegisters : OfRegisters fun t => (f t).a
  q_ofRegisters : OfRegisters fun t => (f t).q
  pc : ∀ t, (f t).pc = t.pc
  ctl : ∀ t, (f t).ctl = t.ctl
  kept : ∀ {s t}, Kept s t → Kept s (f t)

theorem shiftsRegisters_q (g : Word → Word) : ShiftsRegisters fun t => t.setQ (g t.q) :=
  ⟨fun _ _ ha _ => ha, fun _ _ _ hq => congrArg g hq, fun _ => rfl, fun _ => rfl, setQ_kept _⟩

theorem shiftsRegisters_a (g : Word → Word) : ShiftsRegisters fun t => t.setA (g t.a) :=
  ⟨fun _ _ ha _ => congrArg g ha, fun _ _ _ hq => hq, fun _ => rfl, fun _ => rfl, setA_kept _⟩

theorem aq_ofRegisters : OfRegisters aq := by
  intro s t ha hq
  unfold aq
  rw [ha, hq]

theorem shiftsRegisters_aq (g : DWord → DWord) : ShiftsRegisters fun t => setAq (g (aq t)) t :=
  ⟨fun s t ha hq => congrArg (fun d : DWord => (g d).extractLsb' 30 30) (aq_ofRegisters s t ha hq),
    fun s t ha hq => congrArg (fun d : DWord => (g d).extractLsb' 0 30) (aq_ofRegisters s t ha hq),
    fun _ => rfl, fun _ => rfl, setAq_kept _⟩

/-- The sign of AQ is the sign of A. -/
theorem msb_aq (s : State) : (aq s).msb = s.a.getLsbD 29 := by
  rw [aq, BitVec.msb_append, if_neg (by decide), BitVec.msb_eq_getLsbD_last]

section

variable {i : BitVec 3 → BitVec 3 → BitVec 3 → BitVec 15 → Instr} {f : Nat → State → State}

/-! ## Normal-word shifts (R200) -/

/-- A normal-word shift completes with the registers of its update. -/
theorem completesShift (hf : ∀ n, ShiftsRegisters (f n)) (hi : ∀ j k b y s, exec (i j k b y) s = shiftNormal f j k b y s) :
    CompletesShift i fun n s t => t.a = (f n s).a ∧ t.q = (f n s).q := by
  intro j k b y s h n hn
  obtain ⟨ha, hq, hpc, hctl, hkept⟩ := hf n
  refine ⟨_, (hi j k b y s).trans (shiftNormal_ok f j k b y s h hn), ⟨?_, ?_⟩, ?_, ?_, ?_⟩
  · exact (skipIf_a _ _).trans (ha s _ (operandNote_a k b y s) (operandNote_q k b y s))
  · exact (skipIf_q _ _).trans (hq s _ (operandNote_a k b y s) (operandNote_q k b y s))
  · exact (skipNormal_ofRegisters j).pc_skipIf ((hpc _).trans (operandNote_pc k b y s))
  · exact (skipIf_ctl _ _).trans (hctl _)
  · exact skipIf_kept _ (hkept (operandNote_kept k b y s))

theorem CompletesShift.imp {rel rel' : Nat → State → State → Prop} (h : CompletesShift i rel)
    (himp : ∀ n s t, rel n s t → rel' n s t) : CompletesShift i rel' := by
  intro j k b y s hr n hn
  obtain ⟨t, ht, hrel, hrest⟩ := h j k b y s hr hn
  exact ⟨t, ht, himp _ _ _ hrel, hrest⟩

/-- A shift of Q. -/
theorem completesShift_q (g : Nat → Word → Word)
    (hi : ∀ j k b y s, exec (i j k b y) s = shiftNormal (fun n t => t.setQ (g n t.q)) j k b y s) :
    CompletesShift i fun n s t => t.a = s.a ∧ t.q = g n s.q :=
  completesShift (fun n => shiftsRegisters_q (g n)) hi

/-- A shift of A. -/
theorem completesShift_a (g : Nat → Word → Word)
    (hi : ∀ j k b y s, exec (i j k b y) s = shiftNormal (fun n t => t.setA (g n t.a)) j k b y s) :
    CompletesShift i fun n s t => t.q = s.q ∧ t.a = g n s.a :=
  (completesShift (fun n => shiftsRegisters_a (g n)) hi).imp fun _ _ _ => And.symm

/-- A shift of AQ. -/
theorem completesShift_aq (g : Nat → DWord → DWord)
    (hi : ∀ j k b y s, exec (i j k b y) s = shiftNormal (fun n t => setAq (g n (aq t)) t) j k b y s) :
    CompletesShift i fun n s t => aq t = g n (aq s) :=
  (completesShift (fun n => shiftsRegisters_aq (g n)) hi).imp fun n s t ⟨ha, hq⟩ =>
    (aq_ofRegisters _ t ha hq).trans (aq_setAq (g n (aq s)) s)

end

/-! ## Logical shifts (R200, D17) -/

/-- A logical shift whose count may be used completes with the registers of its update. -/
theorem shiftLogical_answers {f : Nat → State → State} (hf : ∀ n, ShiftsRegisters (f n)) {b : BitVec 3} {y : BitVec 15} {s : State}
    (hn : (effective b y s).toNat % 64 ≤ 59) :
    Answers (shiftLogical f b y s) fun t =>
      t.a = (f ((effective b y s).toNat % 64) s).a ∧ t.q = (f ((effective b y s).toNat % 64) s).q ∧ t.pc = s.pc ∧
        t.ctl = (noteData b y s).ctl ∧ Kept s t := by
  have hcount : ((effective b y s).setWidth 6).toNat = (effective b y s).toNat % 64 := by simp
  have hexec : shiftLogical f b y s = .next (f ((effective b y s).toNat % 64) (noteData b y s)) := by
    simp only [shiftLogical, dataOperand, Res.bind_ok, countOf, hcount, if_pos hn, Res.andThen_ok, noteData, if_true]
  obtain ⟨ha, hq, hpc, hctl, hkept⟩ := hf ((effective b y s).toNat % 64)
  exact ⟨_, hexec, ha s _ (capture_a _ s) (capture_q _ s), hq s _ (capture_a _ s) (capture_q _ s), (hpc _).trans (capture_pc _ s),
    hctl _, hkept (capture_kept _ s)⟩

theorem getLsbD_shiftRightZero {w : Nat} (x : BitVec w) (n i : Nat) : (shiftRightZero x n).getLsbD i = x.getLsbD (i + n) := by
  rw [shiftRightZero, BitVec.getLsbD_ushiftRight, Nat.add_comm]

end Sys2Proof.Machine
end

section
/-! Shift counts up to 59 (40_shift.md R200 to R206, R211). -/

namespace Sys2Proof.Machine

open Sys2Proof

/-- Settles O7: the frame is that of every normal-word shift; the bits are those of a sign-filling or of a circular shift of Q, A or AQ. -/
theorem normalShiftsComplete : Obligations.NormalShiftsComplete := by
  unfold Obligations.NormalShiftsComplete
  refine ⟨?rightQ, ?rightA, ?rightAq, ?leftQ, ?leftA, ?leftAq⟩
  case rightQ =>
    refine (completesShift_q (fun n x => shiftRightSign x n) fun _ _ _ _ _ => rfl).imp fun n s t ⟨ha, hq⟩ => ⟨ha, fun i hi => ?_⟩
    rw [hq, getLsbD_shiftRightSign _ _ _ hi, BitVec.msb_eq_getLsbD_last]
  case rightA =>
    refine (completesShift_a (fun n x => shiftRightSign x n) fun _ _ _ _ _ => rfl).imp fun n s t ⟨hq, ha⟩ => ⟨hq, fun i hi => ?_⟩
    rw [ha, getLsbD_shiftRightSign _ _ _ hi, BitVec.msb_eq_getLsbD_last]
  case rightAq =>
    refine (completesShift_aq (fun n x => shiftRightSign x n) fun _ _ _ _ _ => rfl).imp fun n s t haq i hi => ?_
    change (aq t).getLsbD i = _
    rw [haq, getLsbD_shiftRightSign _ _ _ hi, msb_aq]
    rfl
  case leftQ =>
    refine (completesShift_q (fun n x => shiftLeftAround x n) fun _ _ _ _ _ => rfl).imp fun n s t ⟨ha, hq⟩ => ⟨ha, fun i hi => ?_⟩
    rw [hq, getLsbD_shiftLeftAround _ _ _ hi]
  case leftA =>
    refine (completesShift_a (fun n x => shiftLeftAround x n) fun _ _ _ _ _ => rfl).imp fun n s t ⟨hq, ha⟩ => ⟨hq, fun i hi => ?_⟩
    rw [ha, getLsbD_shiftLeftAround _ _ _ hi]
  case leftAq =>
    refine (completesShift_aq (fun n x => shiftLeftAround x n) fun _ _ _ _ _ => rfl).imp fun n s t haq i hi => ?_
    change (aq t).getLsbD i = _
    rw [haq, getLsbD_shiftLeftAround _ _ _ hi]
    rfl

end Sys2Proof.Machine
end

section
/-! Shifts without a sign: the logical shifts and the shift to the first significant bit (40_shift.md R207 to R210). -/

namespace Sys2Proof.Machine

open Sys2Proof

/-! ## The loop of 7730 (R210) -/

/-- The two top bits are equal: A can be shifted once more. -/
def TopBitsEqual (a : Word) : Prop := a.getLsbD 29 = a.getLsbD 28

theorem shiftLeftAround_zero (a : Word) : shiftLeftAround a 0 = a := by
  apply BitVec.eq_of_getLsbD_eq
  intro i hi
  rw [getLsbD_shiftLeftAround a 0 i hi]
  congr 1
  omega

/-- Two circular shifts are one by the sum of their counts. -/
theorem shiftLeftAround_shiftLeftAround (a : Word) (m n : Nat) :
    shiftLeftAround (shiftLeftAround a m) n = shiftLeftAround a (m + n) := by
  apply BitVec.eq_of_getLsbD_eq
  intro i hi
  rw [getLsbD_shiftLeftAround _ n i hi, getLsbD_shiftLeftAround a m _ (Nat.mod_lt _ (by decide)), getLsbD_shiftLeftAround a _ i hi]
  congr 1
  omega

/-- The loop stops at the first count at which the two top bits differ, or when no more shifts may be made. -/
theorem scaleLoop_eq (m : Nat) : ∀ (a : Word) (c : Nat), ∃ d ≤ m, scaleLoop m a c = (shiftLeftAround a d, c + d) ∧
    (∀ e < d, TopBitsEqual (shiftLeftAround a e)) ∧ (d = m ∨ ¬ TopBitsEqual (shiftLeftAround a d)) := by
  induction m with
  | zero =>
    intro a c
    exact ⟨0, le_rfl, by rw [scaleLoop, shiftLeftAround_zero, Nat.add_zero], fun _ h => absurd h (Nat.not_lt_zero _), .inl rfl⟩
  | succ m ih =>
    intro a c
    by_cases htop : TopBitsEqual a
    · obtain ⟨d, hd, hloop, hbelow, hend⟩ := ih (shiftLeftAround a 1) (c + 1)
      simp only [shiftLeftAround_shiftLeftAround, Nat.add_comm 1] at hloop hbelow hend
      refine ⟨d + 1, Nat.succ_le_succ hd, ?_, fun e he => ?_, hend.imp_left (congrArg Nat.succ)⟩
      · rw [scaleLoop, if_pos (beq_iff_eq.2 htop), hloop, Nat.add_assoc, Nat.add_comm 1]
      · cases e with
        | zero => rwa [shiftLeftAround_zero]
        | succ e => exact hbelow e (Nat.lt_of_succ_lt_succ he)
    · refine ⟨0, Nat.zero_le _, ?_, fun _ h => absurd h (Nat.not_lt_zero _), .inr ?_⟩
      · rw [scaleLoop, if_neg (by rwa [beq_iff_eq]), shiftLeftAround_zero, Nat.add_zero]
      · rwa [shiftLeftAround_zero]

/-- The two top bits after a shift by less than the width, as bits of the word before it. -/
theorem topBitsEqual_shiftLeftAround {a : Word} {e : Nat} (he : e < 30) :
    TopBitsEqual (shiftLeftAround a e) ↔ a.getLsbD ((59 - e) % 30) = a.getLsbD ((58 - e) % 30) := by
  rw [TopBitsEqual, getLsbD_shiftLeftAround a e 29 (by decide), getLsbD_shiftLeftAround a e 28 (by decide), Nat.mod_eq_of_lt he]

/-- 7730 writes A and Q as its loop ends. -/
theorem execScaleFactorShift_eq {b : BitVec 3} {y : BitVec 15} {s : State} {a : Word} {c : Nat} (h : scaleLoop 28 s.a 0 = (a, c)) :
    execScaleFactorShift b y s = .next (((captureUnused b y s).setA a).setQ (BitVec.ofNat 30 c)) := by
  rw [execScaleFactorShift, captureUnused_a, h]

/-- Settles O8: the logical shifts have the frame of a shift by `ybar`; 7730 ends as its loop does. -/
theorem unsignedShiftsComplete : Obligations.UnsignedShiftsComplete := by
  unfold Obligations.UnsignedShiftsComplete
  constructor
  · intro b y s n hn
    refine ⟨?logicalQ, ?logicalA, ?logicalAq⟩
    case logicalQ =>
      obtain ⟨t, ht, ha, hq, hrest⟩ := shiftLogical_answers (fun n => shiftsRegisters_q fun x => shiftRightZero x n) hn
      exact ⟨t, ht, ha, fun i _ => (congrArg (BitVec.getLsbD · i) hq).trans (getLsbD_shiftRightZero s.q n i), hrest⟩
    case logicalA =>
      obtain ⟨t, ht, ha, hq, hrest⟩ := shiftLogical_answers (fun n => shiftsRegisters_a fun x => shiftRightZero x n) hn
      exact ⟨t, ht, hq, fun i _ => (congrArg (BitVec.getLsbD · i) ha).trans (getLsbD_shiftRightZero s.a n i), hrest⟩
    case logicalAq =>
      obtain ⟨t, ht, ha, hq, hrest⟩ := shiftLogical_answers (fun n => shiftsRegisters_aq fun x => shiftRightZero x n) hn
      have haq : aq t = shiftRightZero (aq s) n := (aq_ofRegisters _ t ha hq).trans (aq_setAq _ s)
      exact ⟨t, ht, fun i _ => (congrArg (BitVec.getLsbD · i) haq).trans (getLsbD_shiftRightZero (aq s) n i), hrest⟩
  · intro b y s
    obtain ⟨c, hc, hloop, hbelow, hend⟩ := scaleLoop_eq 28 s.a 0
    rw [Nat.zero_add] at hloop
    have hmod : c % 30 = c := Nat.mod_eq_of_lt (by omega)
    obtain ⟨hkept, -, -, hpc, hctl⟩ := captureUnused_frame b y s
    refine ⟨_, execScaleFactorShift_eq hloop, c, hc, ?count, fun i hi => ?bits, fun e he => ?below, hend, hpc, hctl,
      setQ_kept _ (setA_kept _ hkept)⟩
    case count => exact Nat.mod_eq_of_lt (by omega)
    case bits => exact (getLsbD_shiftLeftAround s.a c i hi).trans (by rw [hmod])
    case below => exact (topBitsEqual_shiftLeftAround (by omega)).1 (hbelow e he)

end Sys2Proof.Machine
end

section
/-! The read class with a result in A or Q (41_transfer.md R221, R222, 42_arith_integer.md R266 to R282): an update of the registers by the
operand, then a skip on the final registers. -/

namespace Sys2Proof.Machine

open Sys2Proof

theorem skipQ_ofRegisters (j : BitVec 3) : OfRegisters (skipQ j) := by
  intro s t ha hq
  unfold skipQ
  rw [ha, hq]

/-- The normal column of Table 3-1, bit by bit (30_encoding.md R161). -/
theorem skipNormal_eq (j : BitVec 3) (t : State) : skipNormal j t =
    ((j == 1#3) || (j == 2#3 && !t.q.getLsbD 29) || (j == 3#3 && t.q.getLsbD 29) || (j == 4#3 && t.a == 0) ||
      (j == 5#3 && t.a != 0) || (j == 6#3 && !t.a.getLsbD 29) || (j == 7#3 && t.a.getLsbD 29)) := by
  rcases designator_cases j with rfl | rfl | rfl | rfl | rfl | rfl | rfl | rfl <;> simp [skipNormal, BitVec.msb_eq_getLsbD_last]

/-- The 26/27 column, bit by bit (30_encoding.md R163). -/
theorem skipQ_eq (j : BitVec 3) (t : State) : skipQ j t =
    ((j == 1#3) || (j == 2#3 && !t.a.getLsbD 29) || (j == 3#3 && t.a.getLsbD 29) || (j == 4#3 && t.q == 0) ||
      (j == 5#3 && t.q != 0) || (j == 6#3 && !t.q.getLsbD 29) || (j == 7#3 && t.q.getLsbD 29)) := by
  rcases designator_cases j with rfl | rfl | rfl | rfl | rfl | rfl | rfl | rfl <;> simp [skipQ, BitVec.msb_eq_getLsbD_last]

/-- A write of A with a value of A and Q. -/
theorem shiftsRegisters_setA (g : Word → Word → Word) : ShiftsRegisters fun t => t.setA (g t.a t.q) :=
  ⟨fun _ _ ha hq => congrArg₂ g ha hq, fun _ _ _ hq => hq, fun _ => rfl, fun _ => rfl, setA_kept _⟩

/-- A write of Q with a value of A and Q. -/
theorem shiftsRegisters_setQ (g : Word → Word → Word) : ShiftsRegisters fun t => t.setQ (g t.a t.q) :=
  ⟨fun _ _ ha _ => ha, fun _ _ ha hq => congrArg₂ g ha hq, fun _ => rfl, fun _ => rfl, setQ_kept _⟩

/-- A read-class instruction that updates A and Q by its operand and skips by a column of the final registers completes. -/
theorem completesRead {i : BitVec 3 → BitVec 3 → BitVec 3 → BitVec 15 → Instr} {useK : BitVec 3 → Bool} {f : Word → State → State}
    {column : BitVec 3 → State → Bool} (hcolumn : ∀ j, OfRegisters (column j)) (hf : ∀ v, ShiftsRegisters (f v))
    (hi : ∀ j k b y s, exec (i j k b y) s =
      (readOperand true k b y s).andThen fun v t => .next (skipIf (column j (f v t)) (f v t))) :
    CompletesRead i useK (fun s v => (f v s).a) (fun s v => (f v s).q) fun j _ t => column j t := by
  intro j k b y s _ hr v
  obtain ⟨ha, hq, hpc, hctl, hkept⟩ := hf v
  have hexec : exec (i j k b y) s = .next (skipIf (column j (f v (operandNote k b y s))) (f v (operandNote k b y s))) := by
    rw [hi, readOperand_ok k b y s hr, Res.andThen_ok]
  refine ⟨_, hexec, ?_, ?_, ?_, ?_, ?_⟩
  · exact (skipIf_a _ _).trans (ha s _ (operandNote_a k b y s) (operandNote_q k b y s))
  · exact (skipIf_q _ _).trans (hq s _ (operandNote_a k b y s) (operandNote_q k b y s))
  · exact (hcolumn j).pc_skipIf ((hpc _).trans (operandNote_pc k b y s))
  · exact (skipIf_ctl _ _).trans (hctl _)
  · exact skipIf_kept _ (hkept (operandNote_kept k b y s))

/-- Settles O1: each instruction writes A or Q by its operand, and its column is that of its table. -/
theorem transferAndAddComplete : Obligations.TransferAndAddComplete := by
  unfold Obligations.TransferAndAddComplete
  simp only [← skipNormal_eq, ← skipQ_eq]
  refine ⟨⟨?enterQ, ?enterA, ?addA, ?subtractA, ?enterYPlusQ, ?enterYMinusQ⟩, ?addQ, ?subtractQ⟩
  case enterQ => exact completesRead skipNormal_ofRegisters (fun v => shiftsRegisters_setQ fun _ _ => v) fun _ _ _ _ _ => rfl
  case enterA => exact completesRead skipNormal_ofRegisters (fun v => shiftsRegisters_setA fun _ _ => v) fun _ _ _ _ _ => rfl
  case addA => exact completesRead skipNormal_ofRegisters (fun v => shiftsRegisters_setA fun a _ => onesAdd a v) fun _ _ _ _ _ => rfl
  case subtractA =>
    exact completesRead skipNormal_ofRegisters (fun v => shiftsRegisters_setA fun a _ => onesSub a v) fun _ _ _ _ _ => rfl
  case enterYPlusQ =>
    exact completesRead skipNormal_ofRegisters (fun v => shiftsRegisters_setA fun _ q => onesAdd v q) fun _ _ _ _ _ => rfl
  case enterYMinusQ =>
    exact completesRead skipNormal_ofRegisters (fun v => shiftsRegisters_setA fun _ q => onesSub v q) fun _ _ _ _ _ => rfl
  case addQ => exact completesRead skipQ_ofRegisters (fun v => shiftsRegisters_setQ fun _ q => onesAdd q v) fun _ _ _ _ _ => rfl
  case subtractQ => exact completesRead skipQ_ofRegisters (fun v => shiftsRegisters_setQ fun _ q => onesSub q v) fun _ _ _ _ _ => rfl

end Sys2Proof.Machine
end

section
/-! What a successive word of an operand answers once its address is noted, and the writes of registers by successive words (20_memory.md
R85 to R87). -/

namespace Sys2Proof.Machine

open Sys2Proof

section

variable {s t : State} {b : BitVec 3} {y : BitVec 15}

theorem canRead_noteStorage {n : Nat} (h : canRead (opAddr b y s) n s = true) : canRead (opAddr b y s) n (noteStorage b y s) = true :=
  canRead_noted b y n true s h

theorem canWrite_noteStorage {n : Nat} {p : Part} (h : canWrite (opAddr b y s) n p s = true) :
    canWrite (opAddr b y s) n p (noteStorage b y s) = true :=
  canWrite_noted b y n p true s h

/-- The read of word n of an operand, with its address noted in f1. -/
theorem readAt_noteStorage {n : Nat} (h : canRead (opAddr b y s) n s = true) :
    readAt (opAddr b y s) true n (noteStorage b y s) = .ok (operandWord b y n s) (noteStorage b y s) := by
  rw [readAt_ok _ true n _ (canRead_noteStorage h), wordAt_noteStorage]
  rfl

/-- Two states with equal readability and equal words. -/
structure SameReading (s t : State) : Prop where
  ctl : t.ctl = s.ctl
  mem : t.mem = s.mem
  parity : t.parity = s.parity
  cfg : t.cfg = s.cfg

theorem SameReading.canRead (h : SameReading s t) (o : OpAddr) (n : Nat) : canRead o n t = canRead o n s := by
  obtain ⟨hctl, -, hparity, hcfg⟩ := h
  simp only [Machine.canRead, installed, wordBad, halfBad, readProtected, protField, govIfr, inside, hctl, hparity, hcfg]

theorem SameReading.wordAt (h : SameReading s t) (x : Addr) : wordAt t x = wordAt s x := by
  unfold Machine.wordAt
  rw [h.mem]

end

/-! ## Registers entered from successive words -/

/-- Registers are entered from successive words that can be read, each in its turn. -/
theorem enterWords_ok {put : Nat → Word → State → State} (hput : ∀ n w t, SameReading t (put n w t)) (o : OpAddr) :
    ∀ (m n : Nat) (s : State), (∀ i, n ≤ i → i < n + m → canRead o i s = true) →
      enterWords put o n m s = .next ((List.range' n m).foldl (fun t i => put i (wordAt s (o.word i)) t) s) := by
  intro m
  induction m with
  | zero => intro n s _; rfl
  | succ m ih =>
    intro n s h
    have hsame := hput n (wordAt s (o.word n)) s
    have hrest : ∀ i, n + 1 ≤ i → i < n + 1 + m → canRead o i (put n (wordAt s (o.word n)) s) = true := fun i h1 h2 => by
      rw [hsame.canRead]
      exact h i (by omega) (by omega)
    rw [enterWords, readAt_ok o true n s (h n le_rfl (by omega)), Res.andThen_ok, ih (n + 1) _ hrest, List.range'_succ, List.foldl_cons]
    simp only [hsame.wordAt]

/-- Of writes at different places each reads back. -/
theorem get_foldl_put {σ β : Type} {put : σ → Nat → σ} {get : Nat → σ → β} {value : Nat → β} {limit : Nat}
    (same : ∀ n < limit, ∀ x, get n (put x n) = value n)
    (other : ∀ n < limit, ∀ m < limit, n ≠ m → ∀ x, get n (put x m) = get n x) :
    ∀ m ≤ limit, ∀ n < m, ∀ x, get n ((List.range' 0 m).foldl put x) = value n := by
  intro m
  induction m with
  | zero => intro _ n hn; exact absurd hn (Nat.not_lt_zero n)
  | succ m ih =>
    intro hm n hn x
    rw [List.range'_concat, List.foldl_append]
    simp only [Nat.zero_add, Nat.one_mul, List.foldl_cons, List.foldl_nil]
    rcases Nat.lt_succ_iff_lt_or_eq.mp hn with hlt | rfl
    · rw [other n (by omega) m (by omega) (by omega)]
      exact ih (by omega) n hlt x
    · exact same n (by omega) _

end Sys2Proof.Machine
end

section
/-! Two-word operands in AQ (41_transfer.md R230, 42_arith_integer.md R289 to R291), and the control registers (41_transfer.md R240 to
R244). -/

namespace Sys2Proof.Machine

open Sys2Proof

section

variable {s t : State} {b : BitVec 3} {y : BitVec 15}

theorem canRead_of_doubleReadable (h : doubleReadable b y s = true) :
    canRead (opAddr b y s) 0 s = true ∧ canRead (opAddr b y s) 1 s = true := by
  simpa [doubleReadable] using h

/-- AQ written by its two words. -/
theorem setAq_append (w v : Word) (t : State) : setAq (w ++ v) t = (t.setA w).setQ v := by
  have hhigh : (w ++ v : DWord).extractLsb' 30 30 = w := BitVec.extractLsb'_append_eq_left
  have hlow : (w ++ v : DWord).extractLsb' 0 30 = v := BitVec.extractLsb'_append_eq_right
  rw [setAq, hhigh, hlow]

/-- A 77 word that leaves in AQ a value of AQ and its two-word operand, and never skips. -/
theorem completesDouble {i : BitVec 3 → BitVec 15 → Instr} {f : DWord → DWord → DWord}
    (hi : ∀ b y s, doubleReadable b y s = true →
      exec (i b y) s = .next (setAq (f (aq s) (doubleValue b y s)) (noteStorage b y s))) :
    CompletesDouble i f fun _ _ => false := by
  intro b y s h m
  exact ⟨_, hi b y s h, aq_setAq _ _, noteStorage_pc b y s, rfl, setAq_kept _ (noteStorage_kept b y s)⟩

theorem aq_noteStorage : aq (noteStorage b y s) = aq s := aq_ofRegisters _ _ (noteStorage_a b y s) (noteStorage_q b y s)

/-- 7721 enters the two words one after the other (R230). -/
theorem execEnterAq_eq (h : doubleReadable b y s = true) :
    execEnterAq b y s = .next (setAq (doubleValue b y s) (noteStorage b y s)) := by
  obtain ⟨h0, h1⟩ := canRead_of_doubleReadable h
  have hsame : SameReading (noteStorage b y s) ((noteStorage b y s).setA (operandWord b y 0 s)) := ⟨rfl, rfl, rfl, rfl⟩
  have hsecond : readAt (opAddr b y s) true 1 ((noteStorage b y s).setA (operandWord b y 0 s)) =
      .ok (operandWord b y 1 s) ((noteStorage b y s).setA (operandWord b y 0 s)) := by
    rw [readAt_ok _ true 1 _ (by rw [hsame.canRead, canRead_noteStorage h1]), hsame.wordAt, wordAt_noteStorage]
    rfl
  simp only [execEnterAq, operandAddr_eq, if_true, readAt_noteStorage h0, Res.andThen_ok, hsecond]
  exact congrArg _ (setAq_append _ _ _).symm

end

/-- Settles O13: AQ is written by a function of AQ and the two words; 7724 complements each register. -/
theorem doubleWordTransfersComplete : Obligations.DoubleWordTransfersComplete := by
  unfold Obligations.DoubleWordTransfersComplete
  refine ⟨?enterAq, ?addAq, ?subtractAq, ?complementAq⟩
  case enterAq => exact completesDouble fun b y s h => execEnterAq_eq h
  case addAq =>
    refine completesDouble fun b y s h => ?_
    show execAddAq b y s = _
    rw [execAddAq, readDouble_ok b y s h, Res.andThen_ok, aq_noteStorage]
  case subtractAq =>
    refine completesDouble fun b y s h => ?_
    show execSubtractAq b y s = _
    rw [execSubtractAq, readDouble_ok b y s h, Res.andThen_ok, aq_noteStorage]
  case complementAq =>
    intro b y s
    obtain ⟨hkept, ha, hq, hpc, hctl⟩ := captureUnused_frame b y s
    exact ⟨_, rfl, congrArg (~~~ ·) ha, congrArg (~~~ ·) hq, hpc, hctl, setQ_kept _ (setA_kept _ hkept)⟩

/-! ## Control registers -/

section

variable {r : Result} (b : BitVec 3) (y : BitVec 15) (s : State)

/-- An instruction that writes only control registers, once its operand's address has been noted. -/
theorem setCtl_noteStorage_answers {c : Control} (h : r = .next ((noteStorage b y s).setCtl c)) :
    Answers r fun t => t.ctl = c ∧ t.a = s.a ∧ t.q = s.q ∧ t.pc = s.pc ∧ Kept s t :=
  ⟨_, h, rfl, noteStorage_a b y s, noteStorage_q b y s, noteStorage_pc b y s, setCtl_kept c (noteStorage_kept b y s)⟩

/-- An instruction that writes only a part of one word, once its address has been noted. -/
theorem storeWord_noteStorage_answers {d : Addr} {p : Part} {v : Word} (h : r = .next (storeWord d p v (noteStorage b y s))) :
    Answers r fun t => wordAt t d = mergePart p (wordAt s d) v ∧ MemoryKeptBut [d] s t ∧ ParityStored d p s t ∧
      t.ctl = (noteStorage b y s).ctl ∧ t.a = s.a ∧ t.q = s.q ∧ t.pc = s.pc ∧ KeptButMemory s t := by
  obtain ⟨hword, hother, hkept⟩ := storeWord_frame d p v _ s false (noteStorage_keptButMemory b y s)
  have hparity := storeWord_parityStored d p v _ s false (noteStorage_parity b y s)
  rw [skipIf_false] at hword hother hkept hparity
  refine ⟨_, h, hword, hother, hparity, ?_, ?_, ?_, ?_, hkept⟩
  all_goals simp

end

/-- Settles O37: three of the four write the control registers from the words read; 7765 stores the IFR that step 7 has left. -/
theorem controlRegistersComplete : Obligations.ControlRegistersComplete := by
  unfold Obligations.ControlRegistersComplete
  intro b y s hu n
  refine ⟨fun h => ?enterIfrRir, fun h => ?loadPlr, fun h => ?enterRir, fun h => ?storeIfr⟩
  case enterIfrRir =>
    obtain ⟨h0, h1⟩ := canRead_of_doubleReadable h
    refine setCtl_noteStorage_answers b y s ?_
    show execEnterIfrRir b y s = _
    simp only [execEnterIfrRir, privileged_unguarded hu, operandAddr_eq, if_true, readAt_noteStorage h0, readAt_noteStorage h1,
      Res.andThen_ok]
    rfl
  case loadPlr =>
    refine setCtl_noteStorage_answers b y s ?_
    show execLoadPlr b y s = _
    rw [execLoadPlr, privileged_unguarded hu, readWord_ok b y s h, Res.andThen_ok]
  case enterRir =>
    refine setCtl_noteStorage_answers b y s ?_
    show execEnterRir b y s = _
    rw [execEnterRir, privileged_unguarded hu, readWord_ok b y s h, Res.andThen_ok]
  case storeIfr =>
    refine storeWord_noteStorage_answers b y s (p := .whole) (v := n.ctl.ifr) ?_
    show execStoreIfr b y s = _
    simp only [execStoreIfr, privileged_unguarded hu, operandAddr_eq, if_true,
      writeAt_ok _ true 0 .whole _ id _ (canWrite_noteStorage h), Res.andThen_ok]
    rfl

end Sys2Proof.Machine
end

section
/-! The index registers: 12 enters one, 16 stores one (41_transfer.md R223, R227, R228, 10_state.md R27). -/

namespace Sys2Proof.Machine

open Sys2Proof

section

variable {s t : State} {j k b : BitVec 3} {y : BitVec 15}

/-! ## 12 -/

/-- A write of an index register keeps everything but the index registers. -/
theorem bWriteIn_keeps (c : BView) (j : BitVec 3) (v : Addr) (h : Kept s t) :
    SameIo s (bWriteIn c j v t) ∧ SameSystem s (bWriteIn c j v t) ∧ SameMemory s (bWriteIn c j v t) := by
  obtain ⟨-, hio, hsystem, hmemory⟩ := h
  simpa [bWriteIn, SameIo, SameSystem, SameMemory, wordAt] using And.intro hio (And.intro hsystem hmemory)

/-- 12 with a register: the view is chosen before the operand is read. -/
theorem execEnterB_eq (hj : j ≠ 0#3) (h : operandReadable k b y s = true) :
    execEnterB j k b y s =
      .next (bWriteIn ((hazardView s).getD (bView (operandNote k b y (spendHazard s)))) j ((operandValue k b y s).setWidth 17)
        (operandNote k b y (spendHazard s))) := by
  rw [execEnterB, if_neg hj, readOperand_ok k b y _ (by rw [operandReadable_spendHazard, h]), Res.andThen_ok, operandValue_spendHazard]

end

/-- Settles O12: the register written is read back at its width, and the write leaves every other register. -/
theorem enterIndexRegisterCompletes : Obligations.EnterIndexRegisterCompletes := by
  unfold Obligations.EnterIndexRegisterCompletes
  intro j k b y s
  refine ⟨fun hj => ?noRegister, fun hj h => ?register⟩
  case noRegister =>
    obtain ⟨hkept, ha, hq, hpc, hctl⟩ := captureUnused_frame b y s
    exact ⟨_, if_pos hj, ha, hq, hpc, hctl, hkept⟩
  case register =>
    have hview := hazardView_operandNote k b y s
    have hkept : Kept s (operandNote k b y (spendHazard s)) := (spendHazard_kept s).trans (operandNote_kept k b y _)
    refine ⟨_, execEnterB_eq hj h, ⟨_, hview, ?_⟩, ?_⟩
    · generalize (hazardView s).getD (bView (operandNote k b y (spendHazard s))) = c
      obtain ⟨hread, hother, hset⟩ :=
        bWriteIn_frame c j ((operandValue k b y s).setWidth 17) (operandNote k b y (spendHazard s)) hj
      obtain ⟨⟨hexec, hwork⟩, -⟩ := hkept
      refine ⟨hread.trans (cutTo_eq _ _ (bWidth_cases c j)), fun i hi => ?_, ?_⟩
      · rw [hother i hi, bSetOf_kept ⟨hexec, hwork⟩]
      · rwa [hexec, hwork] at hset
    · obtain ⟨hio, hsystem, hmemory⟩ := bWriteIn_keeps _ j ((operandValue k b y s).setWidth 17) hkept
      exact ⟨by simp [bWriteIn], by simp [bWriteIn], by simp [bWriteIn], by simp [bWriteIn], hio, hsystem, hmemory⟩

/-! ## 16 -/

section

variable {s : State} {j k b : BitVec 3} {y : BitVec 15}

theorem bRead_captureUnused : bRead j (captureUnused b y s) = bRead j s := by
  unfold captureUnused
  simp only []
  split
  · rfl
  · exact bRead_capture _ j s

/-- The ones complement of a register of w bits, as a number. -/
def complementIn (w : Nat) (v : Addr) : Nat := 2 ^ w - 1 - v.toNat

/-- The complement of a value of w bits, filled with its top bit, as a number. -/
theorem toNat_signExtend_not {w : Nat} (x : BitVec w) (hw : w ≤ 30) :
    ((~~~x).signExtend 30).toNat =
      if 2 ^ w - 1 - x.toNat < 2 ^ (w - 1) then 2 ^ w - 1 - x.toNat else 2 ^ w - 1 - x.toNat + (2 ^ 30 - 2 ^ w) := by
  have hle : 2 ^ w ≤ 2 ^ 30 := Nat.pow_le_pow_right (by decide) hw
  have hlt : (2 ^ w - 1 - x.toNat) % 2 ^ 30 = 2 ^ w - 1 - x.toNat := Nat.mod_eq_of_lt (by have := Nat.two_pow_pos w; omega)
  rw [BitVec.toNat_signExtend, BitVec.toNat_setWidth, BitVec.msb_eq_decide, BitVec.toNat_not, hlt]
  by_cases htop : 2 ^ (w - 1) ≤ 2 ^ w - 1 - x.toNat
  · simp [htop, Nat.not_lt.mpr htop]
  · simp [htop, Nat.lt_of_not_le htop]

/-- A register zero-filled to a word. -/
theorem toNat_setWidth_bRead (j : BitVec 3) (s : State) : ((bRead j s).setWidth 30).toNat = (bRead j s).toNat := by
  rw [BitVec.toNat_setWidth]
  exact Nat.mod_eq_of_lt (by have := (bRead j s).isLt; omega)

/-- The word that 16 stores with k = 1, 2 and 3: the register zero-filled (R227). -/
theorem storeBWord_plain (hk : k.getLsbD 2 = false) : (storeBWord k j s).toNat = (bRead j s).toNat := by
  rw [storeBWord, if_neg (by rw [hk]; decide), toNat_setWidth_bRead]

/-- The word that 16 stores with k = 5, 6 and 7: the complement at the register's width, filled with its top bit (R228). -/
theorem storeBWord_complement (hk : k.getLsbD 2 = true) :
    (storeBWord k j s).toNat =
      if complementIn (bWidth (bView s) j) (bRead j s) < 2 ^ (bWidth (bView s) j - 1) then complementIn (bWidth (bView s) j) (bRead j s)
      else complementIn (bWidth (bView s) j) (bRead j s) + (2 ^ 30 - 2 ^ bWidth (bView s) j) := by
  have hlt : (bRead j s).toNat < 2 ^ bWidth (bView s) j := bReadIn_lt (bView s) j s
  simp only [storeBWord, hk, if_true, complementIn]
  rcases bWidth_cases (bView s) j with h | h
  · have hnarrow : ((bRead j s).setWidth 15).toNat = (bRead j s).toNat := by
      rw [BitVec.toNat_setWidth, Nat.mod_eq_of_lt (by rwa [h] at hlt)]
    rw [h, if_neg (by decide), toNat_signExtend_not _ (by decide), hnarrow]
    rfl
  · rw [h, if_pos rfl, toNat_signExtend_not _ (by decide)]
    rfl

theorem lowerHalf_eq_ofNat (w : Word) : lowerHalf w = BitVec.ofNat 15 w.toNat := by
  rw [lowerHalf, BitVec.extractLsb', Nat.shiftRight_zero]

/-- The half that 16 stores with k = 1 and 2. -/
theorem lowerHalf_storeBWord_plain (hk : k.getLsbD 2 = false) : lowerHalf (storeBWord k j s) = BitVec.ofNat 15 (bRead j s).toNat := by
  rw [lowerHalf_eq_ofNat, storeBWord_plain hk]

/-- The half that 16 stores with k = 5 and 6: the fill is above it. -/
theorem lowerHalf_storeBWord_complement (hk : k.getLsbD 2 = true) :
    lowerHalf (storeBWord k j s) = BitVec.ofNat 15 (complementIn (bWidth (bView s) j) (bRead j s)) := by
  rw [lowerHalf_eq_ofNat, storeBWord_complement hk]
  split
  · rfl
  · apply BitVec.eq_of_toNat_eq
    rw [BitVec.toNat_ofNat, BitVec.toNat_ofNat]
    rcases bWidth_cases (bView s) j with h | h <;> rw [h] <;> omega

/-- 16 with a storage destination stores its word, taken before the conversion (log 57). -/
theorem execStoreB_eq (hk : storageK k = true) (h : canWrite (opAddr b y s) 0 (partOf k) s = true) :
    execStoreB j k b y s = .next (storeWord ((opAddr b y s).word 0) (partOf k) (storeBWord k j s) (noteStorage b y s)) := by
  rw [execStoreB, ite_of_storageK hk]
  simp only [operandAddr_eq, if_true, writeAt_ok _ true 0 _ _ id _ (canWrite_noteStorage h), Res.andThen_ok]

end

/-- Settles O11: the stored word is the register or its complement as a number, and the half stored is its low half. -/
theorem storeIndexRegisterCompletes : Obligations.StoreIndexRegisterCompletes := by
  unfold Obligations.StoreIndexRegisterCompletes
  intro j k b y s v w cv
  obtain ⟨hkept, ha, hq, hpc, hctl⟩ := captureUnused_frame b y s
  refine ⟨fun hk => ?toQ, fun hk => ?toA, fun hk h => ?toStorage⟩
  case toQ =>
    refine ⟨_, if_pos hk, ?_, ha, hpc, hctl, setQ_kept _ hkept⟩
    rw [State.setQ_q, bRead_captureUnused, toNat_setWidth_bRead]
  case toA =>
    subst hk
    refine ⟨_, rfl, ?_, hq, hpc, hctl, setA_kept _ hkept⟩
    rw [State.setA_a, bRead_captureUnused, toNat_setWidth_bRead]
  case toStorage =>
    obtain ⟨t, ht, hword, hother, hparity, hctl, ha, hq, hpc, hkept⟩ :=
      storeWord_noteStorage_answers b y s (execStoreB_eq (j := j) hk h)
    refine ⟨t, ht, ?_, ?_, ?_, ?_, ?_, ?_, hother, hparity, ha, hq, hpc, hctl, hkept⟩
    all_goals
      rintro rfl
      rw [hword]
    · exact congrArg (upperHalf _ ++ ·) (lowerHalf_storeBWord_plain rfl)
    · exact congrArg (· ++ lowerHalf _) (lowerHalf_storeBWord_plain rfl)
    · exact storeBWord_plain rfl
    · exact congrArg (upperHalf _ ++ ·) (lowerHalf_storeBWord_complement rfl)
    · exact congrArg (· ++ lowerHalf _) (lowerHalf_storeBWord_complement rfl)
    · exact storeBWord_complement rfl

end Sys2Proof.Machine
end

section
/-! The instructions on successive words (41_transfer.md R231, R245 to R250): a store of a list of words, and registers entered word by
word. -/

namespace Sys2Proof.Machine

open Sys2Proof

/-! ## Stores of successive words -/

section

variable {b : BitVec 3} {y : BitVec 15} {s : State}

theorem KeptButMemory.trans {t u : State} (h : KeptButMemory s t) (g : KeptButMemory t u) : KeptButMemory s u := by
  simp_all [KeptButMemory, SameIndex, SameIo, SameSystem]

/-- A 77 word that stores the given values in a part of each of at most seven successive words. -/
theorem completesStores {i : BitVec 3 → BitVec 15 → Instr} {n : Nat} {p : Part} {value : State → Nat → Word} (hn : n ≤ 7)
    (hi : ∀ b y s, exec (i b y) s =
      (writeWords (opAddr b y s) p 0 ((List.range n).map (value s)) (noteStorage b y s)).andThen fun _ t => .next t) :
    CompletesStores i n p value := by
  intro b y s h
  have hlength : ((List.range n).map (value s)).length = n := by simp
  have hwritable : ∀ x < n, canWrite (opAddr b y s) x p (noteStorage b y s) = true := fun x hx =>
    canWrite_noteStorage (List.all_eq_true.mp h x (List.mem_range.mpr hx))
  obtain ⟨t, ht, hword, hother, hkept, ha, hq, hpc, hctl, hparity⟩ :=
    writeWords_ok (opAddr b y s) p ((List.range n).map (value s)) 0 (noteStorage b y s) (by omega)
      fun x _ hx => hwritable x (by omega)
  simp only [hlength, Nat.zero_add, List.getElem_map, List.getElem_range, wordAt_noteStorage] at hword hother hparity
  obtain ⟨hnote, -⟩ := noteStorage_keptButMemory b y s
  have haddrs : ∀ x, x ∈ operandAddrs b y n s ↔ ∃ m < n, x = (opAddr b y s).word m := fun x => by
    simp only [operandAddrs, List.mem_map, List.mem_range, eq_comm]
  refine ⟨t, by rw [hi, ht, Res.andThen_ok], hword, fun x hx => ?_, fun x u => ?_, ha.trans (noteStorage_a b y s),
    hq.trans (noteStorage_q b y s), hpc.trans (noteStorage_pc b y s), hctl, ?_⟩
  · exact hother x fun m hm e => hx ((haddrs x).mpr ⟨m, hm, e⟩)
  · rw [hparity, decide_eq_decide.mpr (haddrs x)]
    unfold halfBad
    rw [noteStorage_parity]
  · exact hnote.trans hkept

/-- A character of A alone in a word. -/
theorem setWidth_charOf (n : Nat) (a : Word) : (charOf n a).setWidth 30 = (a >>> (24 - 6 * n)) &&& 0o77#30 := by
  have hmask : 0o77#30 = (BitVec.allOnes 6).setWidth 30 := by decide
  apply BitVec.eq_of_getLsbD_eq
  intro i hi
  simp only [charOf, hmask, BitVec.getLsbD_setWidth, BitVec.getLsbD_extractLsb', BitVec.getLsbD_and, BitVec.getLsbD_ushiftRight,
    BitVec.getLsbD_allOnes, hi, decide_true, Bool.true_and]
  exact Bool.and_comm _ _

theorem charWords_eq (a : Word) : charWords a = (List.range 5).map fun n => (a >>> (24 - 6 * n)) &&& 0o77#30 := by
  simp only [charWords, setWidth_charOf]

/-! ## Registers entered from successive words -/

theorem foldl_setA (g : Word → Nat → Word) : ∀ (l : List Nat) (s : State),
    l.foldl (fun t i => t.setA (g t.a i)) s = s.setA (l.foldl g s.a) := by
  intro l
  induction l with
  | nil => intro s; rfl
  | cons i l ih => intro s; exact ih _

theorem foldl_setBWork (g : BSet → Nat → BSet) : ∀ (l : List Nat) (s : State),
    l.foldl (fun t i => t.setBWork (g t.bWork i)) s = s.setBWork (l.foldl g s.bWork) := by
  intro l
  induction l with
  | nil => intro s; rfl
  | cons i l ih => intro s; exact ih _

/-- The words of an operand that can be read are entered in their turn, once its address has been noted. -/
theorem enterWords_noteStorage {m : Nat} (put : Nat → Word → State → State) (hput : ∀ n w t, SameReading t (put n w t))
    (h : wordsReadable b y m s = true) :
    enterWords put (opAddr b y s) 0 m (noteStorage b y s) =
      .next ((List.range' 0 m).foldl (fun t i => put i (operandWord b y i s) t) (noteStorage b y s)) := by
  rw [enterWords_ok hput _ m 0 _ fun i _ hi => canRead_noteStorage (List.all_eq_true.mp h i (List.mem_range.mpr (by omega)))]
  simp only [wordAt_noteStorage]
  rfl

/-- The worker register that word n of 7771 goes to. -/
theorem toNat_workerIndex {n : Nat} (hn : n < 7) : (BitVec.ofNat 3 (n + 1)).toNat = n + 1 := by
  rw [BitVec.toNat_ofNat]; omega

/-- A worker register holds the low bits of the word entered into it, as far as it is wide. -/
theorem toNat_read_write {n : Nat} (hn : n < 7) (r : BSet) (w : Word) :
    ((r.write (BitVec.ofNat 3 (n + 1)) (w.setWidth 17)).read (BitVec.ofNat 3 (n + 1))).toNat =
      w.toNat % 2 ^ (if n < 3 then 15 else 17) := by
  have hindex := toNat_workerIndex hn
  have hne : BitVec.ofNat 3 (n + 1) ≠ 0#3 := fun h => by
    rw [h] at hindex
    exact absurd hindex (by simp)
  rw [read_write, if_neg hne, hindex]
  by_cases h3 : n < 3
  · rw [if_pos (by omega), if_pos h3]
    simp
    omega
  · rw [if_neg (by omega), if_neg h3, BitVec.toNat_setWidth]

/-- The bits of A after character n has been replaced. -/
theorem getLsbD_putChar (n : Nat) (c : BitVec 6) (a : Word) (i : Nat) (hi : i < 30) :
    (putChar n c a).getLsbD i = if 24 - 6 * n ≤ i ∧ i < 24 - 6 * n + 6 then c.getLsbD (i - (24 - 6 * n)) else a.getLsbD i := by
  have hmask : 0o77#30 = (BitVec.allOnes 6).setWidth 30 := by decide
  simp only [putChar, hmask, BitVec.getLsbD_or, BitVec.getLsbD_and, BitVec.getLsbD_not, BitVec.getLsbD_shiftLeft,
    BitVec.getLsbD_setWidth, BitVec.getLsbD_allOnes, hi, decide_true, Bool.true_and, show i - (24 - 6 * n) < 30 by omega]
  by_cases hlow : i < 24 - 6 * n
  · simp [hlow]
    intro h
    omega
  · by_cases hhigh : i < 24 - 6 * n + 6
    · simp [hlow, hhigh, show i - (24 - 6 * n) < 6 by omega]
      omega
    · simp [hlow, hhigh, show ¬ i - (24 - 6 * n) < 6 by omega, BitVec.getLsbD_of_ge c (i - (24 - 6 * n)) (by omega)]

theorem charOf_putChar_same {n : Nat} (hn : n < 5) (c : BitVec 6) (a : Word) : charOf n (putChar n c a) = c := by
  apply BitVec.eq_of_getLsbD_eq
  intro i hi
  rw [charOf, BitVec.getLsbD_extractLsb', getLsbD_putChar n c a _ (by omega), if_pos (by omega)]
  simp [hi]

theorem charOf_putChar_other {n m : Nat} (hn : n < 5) (hm : m < 5) (hne : n ≠ m) (c : BitVec 6) (a : Word) :
    charOf n (putChar m c a) = charOf n a := by
  apply BitVec.eq_of_getLsbD_eq
  intro i hi
  rw [charOf, charOf, BitVec.getLsbD_extractLsb', BitVec.getLsbD_extractLsb', getLsbD_putChar m c a _ (by omega), if_neg (by omega)]

/-- 7771 writes the worker set from the seven words. -/
theorem execEnterBWorker_eq (h : wordsReadable b y 7 s = true) :
    execEnterBWorker b y s = .next ((noteStorage b y s).setBWork
      ((List.range' 0 7).foldl (fun r i => r.write (BitVec.ofNat 3 (i + 1)) ((operandWord b y i s).setWidth 17)) s.bWork)) := by
  have henter := enterWords_noteStorage (fun n w t => t.setBWork (t.bWork.write (BitVec.ofNat 3 (n + 1)) (w.setWidth 17)))
    (fun _ _ _ => ⟨rfl, rfl, rfl, rfl⟩) h
  rw [foldl_setBWork fun r i => r.write (BitVec.ofNat 3 (i + 1)) ((operandWord b y i s).setWidth 17), noteStorage_bWork] at henter
  simpa only [execEnterBWorker, operandAddr_eq, if_true] using henter

/-- 7731 and 7732 put a character of each of the five words in A. -/
theorem enterChars_answers {r : Result} (c : Word → BitVec 6) (h : wordsReadable b y 5 s = true)
    (hr : r = enterWords (fun n w t => t.setA (putChar n (c w) t.a)) (opAddr b y s) 0 5 (noteStorage b y s)) :
    Answers r fun t => (∀ n < 5, charOf n t.a = c (operandWord b y n s)) ∧ t.q = s.q ∧ t.pc = s.pc ∧
      t.ctl = (noteStorage b y s).ctl ∧ Kept s t := by
  have henter := enterWords_noteStorage (fun n w t => t.setA (putChar n (c w) t.a)) (fun _ _ _ => ⟨rfl, rfl, rfl, rfl⟩) h
  rw [foldl_setA fun a i => putChar i (c (operandWord b y i s)) a] at henter
  refine ⟨_, hr.trans henter, fun n hn => ?_, (State.setA_q _ _).trans (noteStorage_q b y s),
    (State.setA_pc _ _).trans (noteStorage_pc b y s), State.setA_ctl _ _, setA_kept _ (noteStorage_kept b y s)⟩
  rw [State.setA_a]
  exact get_foldl_put (get := charOf) (value := fun n => c (operandWord b y n s)) (limit := 5) (fun m hm a => charOf_putChar_same hm _ a)
    (fun m hm m' hm' hne a => charOf_putChar_other hm hm' hne _ a) 5 le_rfl n hn _

end

/-- Settles O15: the stores are lists of values of the registers, and each word entered is read back from its own place. -/
theorem multiWordInstructionsComplete : Obligations.MultiWordInstructionsComplete := by
  unfold Obligations.MultiWordInstructionsComplete
  refine ⟨⟨?storeAq, ?storeBWorker, ?charUnpackLower, ?charUnpackUpper⟩, fun b y s h => ?enterBWorker,
    fun b y s h => ⟨?charPackLower, ?charPackUpper⟩⟩
  case storeAq =>
    refine completesStores (by decide) fun b y s => ?_
    show execStoreAq b y s = _
    rw [execStoreAq, operandAddr_eq]
    rfl
  case storeBWorker =>
    refine completesStores (by decide) fun b y s => ?_
    show execStoreBWorker b y s = _
    rw [execStoreBWorker, operandAddr_eq]
    rfl
  case charUnpackLower =>
    refine completesStores (by decide) fun b y s => ?_
    show execCharUnpackLower b y s = _
    rw [execCharUnpackLower, operandAddr_eq, charWords_eq]
    rfl
  case charUnpackUpper =>
    refine completesStores (by decide) fun b y s => ?_
    show execCharUnpackUpper b y s = _
    rw [execCharUnpackUpper, operandAddr_eq, charWords_eq]
    rfl
  case enterBWorker =>
    obtain ⟨⟨hexec, -⟩, hio, hsystem, hmemory⟩ := noteStorage_kept b y s
    refine ⟨_, execEnterBWorker_eq h, fun n hn => ?_, (State.setBWork_bExec _ _).trans hexec,
      (State.setBWork_a _ _).trans (noteStorage_a b y s), (State.setBWork_q _ _).trans (noteStorage_q b y s),
      (State.setBWork_pc _ _).trans (noteStorage_pc b y s), State.setBWork_ctl _ _, hio, hsystem, hmemory⟩
    rw [State.setBWork_bWork]
    refine get_foldl_put (get := fun n r => (r.read (BitVec.ofNat 3 (n + 1))).toNat) (limit := 7)
      (value := fun n => (operandWord b y n s).toNat % 2 ^ (if n < 3 then 15 else 17)) (fun m hm r => toNat_read_write hm r _)
      (fun m hm m' hm' hne r => ?_) 7 le_rfl n hn _
    have hindex : BitVec.ofNat 3 (m + 1) ≠ BitVec.ofNat 3 (m' + 1) := fun h => by
      have htoNat := congrArg BitVec.toNat h
      rw [toNat_workerIndex hm, toNat_workerIndex hm'] at htoNat
      omega
    exact congrArg BitVec.toNat (read_write_other r _ _ _ hindex)
  case charPackLower =>
    refine enterChars_answers (fun w => w.extractLsb' 0 6) h ?_
    show execCharPackLower b y s = _
    rw [execCharPackLower, operandAddr_eq]
    rfl
  case charPackUpper =>
    refine enterChars_answers (fun w => w.extractLsb' 15 6) h ?_
    show execCharPackUpper b y s = _
    rw [execCharPackUpper, operandAddr_eq]
    rfl

end Sys2Proof.Machine
end

section
/-! The instruction after 7761 (41_transfer.md R241, 48_sequence.md R441): its first conversion, the configuration in force from there on,
and the Repeat sequence that a taken jump resumes. -/

namespace Sys2Proof.Machine

open Sys2Proof

section

variable {s : State} {k b : BitVec 3} {y : BitVec 15}

/-! ## The first conversion -/

theorem afterConvert_due (h : s.ctl.newIfr = .due) : afterConvert s = activate s := if_pos h

theorem convert_due (b : BitVec 3) (r : Addr) (h : s.ctl.newIfr = .due) :
    convert b r s = (⟨r + (s.ctl.rirIV ++ 0#6), false⟩, activate s) := by
  unfold convert; rw [h]

theorem opAddr_due (h : s.ctl.newIfr = .due) : opAddr b y s = ⟨effective b y s + (s.ctl.rirIV ++ 0#6), false⟩ := by
  unfold opAddr; rw [convert_due b _ h]

/-- The operand word of the instruction after 7761 is not limit-checked. -/
theorem canRead_opAddr_due (h : s.ctl.newIfr = .due) (hi : installed s (effective b y s + (s.ctl.rirIV ++ 0#6)) = true)
    (hp : wordBad s (effective b y s + (s.ctl.rirIV ++ 0#6)) = false) : canRead (opAddr b y s) 0 s = true := by
  simp [canRead, opAddr_due h, hi, hp]

/-- A storage operand of the instruction after 7761 can be had. -/
theorem operandReadable_due (h : s.ctl.newIfr = .due) (hi : installed s (effective b y s + (s.ctl.rirIV ++ 0#6)) = true)
    (hp : wordBad s (effective b y s + (s.ctl.rirIV ++ 0#6)) = false) : operandReadable k b y s = true := by
  simp [operandReadable, canRead_opAddr_due h hi hp]

theorem storageOperand_cases (h : immediateK k = false) : k = 1#3 ∨ k = 2#3 ∨ k = 3#3 ∨ k = 5#3 ∨ k = 6#3 := by revert k; decide

/-! ## The new configuration in force -/

/-- The state in which 60 with j = 1 jumps after its first conversion: f1 holds P, the new IFR is in force, the lockout is released. -/
def inForce (s : State) : State := releaseLockout (activate (capture s.pc s))

theorem inForce_ctl (s : State) : (inForce s).ctl = { (capture s.pc s).ctl with ifrActive := true, newIfr := .settled } := rfl

theorem inForce_newIfr (s : State) : (inForce s).ctl.newIfr = .settled := rfl

theorem inForce_ifrActive (s : State) : (inForce s).ctl.ifrActive = true := rfl

theorem inForce_kept (s : State) : SameIndex s (inForce s) ∧ SameMemory s (inForce s) ∧ (inForce s).rep = s.rep ∧
    (inForce s).panel = s.panel ∧ (inForce s).a = s.a ∧ (inForce s).q = s.q ∧ (inForce s).pc = s.pc := by
  simp [inForce, SameIndex, SameMemory, wordAt]

/-- f1 apart, the control registers are those that 7761 has left. -/
theorem inForce_registers (s : State) : (inForce s).ctl.rirIV = s.ctl.rirIV ∧ (inForce s).ctl.rirActive = s.ctl.rirActive ∧
    (inForce s).ctl.plrUL = s.ctl.plrUL ∧ (inForce s).ctl.plrLL = s.ctl.plrLL ∧ (inForce s).ctl.reinit = s.ctl.reinit ∧
    (inForce s).ctl.ifrHold = s.ctl.ifrHold := by
  simp only [inForce_ctl, capture_ctl]
  split <;> simp

theorem inForce_ifr_getLsbD (s : State) {i : Nat} (hi : 17 ≤ i) : (inForce s).ctl.ifr.getLsbD i = s.ctl.ifr.getLsbD i := by
  simp only [inForce_ctl, capture_ctl]
  split
  · rfl
  · rw [withF1_getLsbD, if_neg (by omega)]

theorem inForce_f3 (s : State) : (inForce s).ctl.ifr.extractLsb' 21 2 = s.ctl.ifr.extractLsb' 21 2 := by
  apply BitVec.eq_of_getLsbD_eq
  intro i hi
  rw [BitVec.getLsbD_extractLsb', BitVec.getLsbD_extractLsb', inForce_ifr_getLsbD s (by omega)]

/-- The relative index that the new configuration gives (20_memory.md R93, R95). -/
theorem relIndex_inForce (b : BitVec 3) (s : State) :
    relIndex b (inForce s) = if s.ctl.rirActive = false then s.panel.msr ++ 0#15
      else if s.ctl.ifr.getLsbD 27 = true ∧ 4 ≤ b.toNat then s.ctl.plrLL ++ 0#6 else s.ctl.rirIV ++ 0#6 := by
  obtain ⟨hiv, hactive, -, hll, -⟩ := inForce_registers s
  obtain ⟨-, -, -, hpanel, -⟩ := inForce_kept s
  simp only [relIndex, govIfr_settled (inForce_newIfr s), inForce_ifr_getLsbD s (show 17 ≤ 27 by decide), inForce_ifrActive, hiv, hactive,
    hll, hpanel, Bool.not_eq_true', Bool.true_and, Bool.and_eq_true, decide_eq_true_eq]

/-- Where the new configuration lets a jump go (20_memory.md R102). -/
theorem destAllowed_inForce (s : State) (d : Addr) : destAllowed ⟨d, true⟩ (inForce s) = true ↔
    s.ctl.ifr.extractLsb' 21 2 ≠ 1#2 ∨ s.ctl.plrLL.toNat * 64 ≤ d.toNat ∧ d.toNat ≤ s.ctl.plrUL.toNat * 64 + 63 := by
  obtain ⟨-, -, hul, hll, -⟩ := inForce_registers s
  have hprotected := readProtected_iff (inForce_newIfr s)
  rw [inForce_f3] at hprotected
  have hinside := inside_iff (inForce s) d
  rw [hul, hll] at hinside
  simp [destAllowed, ← hinside, ← Bool.not_eq_true, hprotected, inForce_ifrActive]

/-! ## The jump -/

/-- A jump has been taken with the new configuration in force and the lockout released; where the loaded IFR asks for it, the Repeat
sequence is resumed with j from f2 and `ybar` from f1 (48_sequence.md R433, R441). -/
def JumpedInForce (s : State) (a : Addr) (t : State) : Prop :=
  t.pc = a ∧ t.ctl.ifrActive = true ∧ t.ctl.newIfr = .settled ∧ t.lockout.locked = false ∧
    (s.ctl.reinit = false → t.rep = s.rep) ∧
    (s.ctl.reinit = true → t.ctl.ifr = s.ctl.ifr ∧ t.ctl.reinit = false ∧ t.rep =
      { active := true, j := s.ctl.ifr.extractLsb' 18 3, first := false, word := none,
        ybar := if s.ctl.ifr.getLsbD 26 = true ∧ 4 ≤ ((wordAt s a).extractLsb' 15 3).toNat then s.ctl.ifr.extractLsb' 0 17
          else (s.ctl.ifr.extractLsb' 0 15).setWidth 17 })

/-- A Repeat to be resumed inhibits the write of f1. -/
theorem inForce_ifr_of_reinit (h : s.ctl.reinit = true) : (inForce s).ctl.ifr = s.ctl.ifr := by
  have hf1 : f1Inhibited s = true := by simp [f1Inhibited, h]
  rw [inForce_ctl, capture_ctl, if_pos hf1]

theorem jumpedInForce_loadPc (a : Addr) (s : State) : JumpedInForce s a (loadPc a (inForce s)) := by
  obtain ⟨-, -, -, -, hreinit, -⟩ := inForce_registers s
  obtain ⟨-, ⟨hword, -⟩, hrep, -⟩ := inForce_kept s
  refine ⟨loadPc_pc _ _, ?_, ?_, loadPc_lockout a (inForce s) ▸ rfl, fun h => ?_, fun h => ?_⟩
  · unfold loadPc; simp only []; split <;> rfl
  · unfold loadPc; simp only []; split <;> rfl
  · simp only [loadPc, hreinit, h, Bool.false_eq_true, if_false]
    exact hrep
  · have hifr := inForce_ifr_of_reinit h
    have hybar := resumedYbar_active a (inForce s) (inForce_ifrActive s) (inForce_newIfr s)
    simp only [hword, hifr, and_comm (a := 4 ≤ _)] at hybar
    simp only [loadPc, hreinit, h, if_true, hybar, hifr]
    exact ⟨rfl, rfl, rfl⟩

/-- 60 with j = 1 and k = 0: the destination is the first conversion. -/
theorem jumpArithmetic_direct_due (h : s.ctl.newIfr = .due) :
    execJumpArithmetic 1#3 0#3 b y s = .next (loadPc (effective b y s + (s.ctl.rirIV ++ 0#6)) (inForce s)) := by
  have hdue : (releaseLockout (capture s.pc s)).ctl.newIfr = .due := (capture_newIfr s.pc s).trans h
  have hiv : (releaseLockout (capture s.pc s)).ctl.rirIV = s.ctl.rirIV := by
    obtain ⟨hiv, -⟩ := inForce_registers s
    exact hiv
  have htarget : jumpRel 0#3 (operandValue 0#3 b y s) (jumpNote 0#3 s) = effective b y s := by simp [jumpRel, operandValue]
  have hjump : execJumpArithmetic 1#3 0#3 b y s = jumpTo b (effective b y s) id id (releaseLockout (capture s.pc s)) := by
    rw [execJumpArithmetic, if_neg (by decide), jumpOperand_ok 0#3 b y s rfl, Res.andThen_ok, htarget]
    rfl
  rw [hjump, jumpTo_ok _ _ _ _ _ (by simp [convert_due b _ hdue, destAllowed]), convert_due b _ hdue, afterConvert_due hdue, hiv]
  rfl

theorem jumpNote_due (h : s.ctl.newIfr = .due) (hk : immediateK k = false) : jumpNote k s = activate (capture s.pc s) := by
  rw [jumpNote, hk, if_neg (by decide), afterConvert_due ((capture_newIfr s.pc s).trans h)]

/-- 60 with j = 1 and a storage operand: the operand is the first conversion, the destination is under the new configuration. -/
theorem jumpArithmetic_indirect_due (h : s.ctl.newIfr = .due) (hk : immediateK k = false) (hr : operandReadable k b y s = true) :
    execJumpArithmetic 1#3 k b y s = jumpTo b (jumpRel k (operandValue k b y s) (inForce s)) id id (inForce s) := by
  rw [execJumpArithmetic, if_neg (by decide), jumpOperand_ok k b y s hr, Res.andThen_ok, jumpNote_due h hk]
  rfl

theorem lowerHalf_setWidth (x : Half) : lowerHalf (x.setWidth 30) = x := by
  apply BitVec.eq_of_getLsbD_eq
  intro i hi
  simp [lowerHalf, hi, show i < 30 by omega]

theorem lowerHalf_signExtend (x : Half) : lowerHalf (x.signExtend 30) = x := by
  apply BitVec.eq_of_getLsbD_eq
  intro i hi
  rw [lowerHalf, BitVec.getLsbD_extractLsb', Nat.zero_add, BitVec.getLsbD_signExtend]
  simp [hi, show i < 30 by omega]

/-- The relative target in an operand word, of 17 bits for k = 3 under a new IFR with bit 26 (30_encoding.md R158, D15). -/
theorem jumpRel_inForce (hk : immediateK k = false) (w : Word) (hw : wordAt s ((opAddr b y s).word 0) = w) :
    jumpRel k (operandValue k b y s) (inForce s) =
      if k = 2#3 ∨ k = 6#3 then (w.extractLsb' 15 15).setWidth 17
      else if k = 3#3 ∧ s.ctl.ifr.getLsbD 26 = true then w.extractLsb' 0 17 else (w.extractLsb' 0 15).setWidth 17 := by
  have hwide : (bView (inForce s)).wide = s.ctl.ifr.getLsbD 26 := by
    rw [← inForce_ifr_getLsbD s (show 17 ≤ 26 by decide), ← govIfr_settled (inForce_newIfr s)]
    rfl
  subst hw
  rcases storageOperand_cases hk with rfl | rfl | rfl | rfl | rfl
  · exact congrArg (BitVec.setWidth 17) (lowerHalf_setWidth _)
  · exact congrArg (BitVec.setWidth 17) (lowerHalf_setWidth _)
  · have hlow : (wordAt s ((opAddr b y s).word 0)).setWidth 17 = (wordAt s ((opAddr b y s).word 0)).extractLsb' 0 17 :=
      BitVec.setWidth_eq_extractLsb' (by decide)
    simp only [jumpRel, operandValue, hwide, hlow, true_and]
    rfl
  · exact congrArg (BitVec.setWidth 17) (lowerHalf_signExtend _)
  · exact congrArg (BitVec.setWidth 17) (lowerHalf_signExtend _)

/-- Program Protection taken outside a Repeat sequence changes nothing but what every entry changes (60_exceptions.md R541, R550). -/
theorem raise_programProtection (a : Option Addr) (h : s.rep.active = false) :
    Answers (raise .programProtection a s) fun t =>
      EnteredFault 0o1#15 s t ∧ IfrEntered s t ∧ SameMemory s t ∧ t.a = s.a ∧ t.q = s.q := by
  obtain ⟨hentered, hifr, ha, hq, hmem, hpending, hsel⟩ := enter_frame (.uncond .programProtection) a s h
  refine ⟨_, rfl, ⟨hentered, ?_⟩, hifr, hmem, ha, hq⟩
  rw [hsel, hpending]
  exact ⟨rfl, rfl, rfl, rfl, rfl⟩

/-- The entry of a fault looks the same from the state before the lockout was released. -/
theorem enteredFault_releaseLockout {n : BitVec 15} {t : State} : EnteredFault n (releaseLockout s) t ↔ EnteredFault n s t := Iff.rfl

theorem jumpNote_controlKept (h : s.ctl.newIfr = .due) (hk : immediateK k = false) : ControlKept s (jumpNote k s) := by
  simp only [ControlKept, jumpNote_due h hk, activate, State.setCtl_ctl, capture_ctl, h]
  split <;> simp [withF1_high]

/-- A denied jump enters Program Protection with the registers as they were and f1 holding P. -/
theorem jump_denied_due (h : s.ctl.newIfr = .due) (hk : immediateK k = false) (hrep : s.rep.active = false) (d : Addr) :
    Answers (protection d false (inForce s)) fun t =>
      EnteredFault 0o1#15 s t ∧ IfrEntered (jumpNote k s) t ∧ SameMemory s t ∧ t.a = s.a ∧ t.q = s.q := by
  obtain ⟨-, hmemory, hrep', -, ha, hq, -⟩ := inForce_kept s
  obtain ⟨⟨hindex, hio, hsystem, -⟩, -, -, hpc⟩ := jumpNote_frame k s
  obtain ⟨t, ht, hentered, hifr, hmem, ha', hq'⟩ := raise_programProtection (some d) ((congrArg RepeatState.active hrep').trans hrep)
  have hinForce : inForce s = releaseLockout (jumpNote k s) := by rw [jumpNote_due h hk, inForce]
  refine ⟨t, ht, ?_, ?_, ⟨fun x => ?_, ?_⟩, ha'.trans ha, hq'.trans hq⟩
  · rw [hinForce, enteredFault_releaseLockout] at hentered
    refine enteredFault_congr ⟨hindex, hio, hsystem⟩ (jumpNote_controlKept h hk) s.pc ?_
    rw [← hpc]
    exact hentered
  · rw [jumpNote_due h hk]
    exact hifr
  · exact (hmem.1 x).trans (hmemory.1 x)
  · exact hmem.2.trans hmemory.2

/-! ## ENTER_A -/

/-- 11 with a storage operand leaves the new IFR in force. -/
theorem enterA_due (h : s.ctl.newIfr = .due) (hk : immediateK k = false) (hr : operandReadable k b y s = true) (j : BitVec 3) :
    Answers (exec (.enterA j k b y) s) fun t =>
      t.a = operandValue k b y s ∧ t.ctl.ifrActive = true ∧ t.ctl.newIfr = .settled := by
  have hcompletes : CompletesRead .enterA (fun _ => true) (fun _ v => v) (fun s _ => s.q) fun j _ t => skipNormal j t :=
    completesRead skipNormal_ofRegisters (fun v => shiftsRegisters_setA fun _ _ => v) fun _ _ _ _ _ => rfl
  obtain ⟨t, ht, ha, -, -, hctl, -⟩ := hcompletes j k b y s rfl hr
  have hnote : operandNote k b y s = capture (opAddr b y s).base (activate s) := by
    rw [← afterConvert_due h]
    rcases storageOperand_cases hk with rfl | rfl | rfl | rfl | rfl <;> rfl
  refine ⟨t, ht, ha, ?_, ?_⟩
  · rw [hctl, hnote, capture_ctl]
    split <;> rfl
  · rw [hctl, hnote, capture_newIfr]
    rfl

end

/-! ## The end of an instruction without a conversion -/

theorem settleIfr_loading {s : State} (h : s.ctl.newIfr = .loading) : (settleIfr s).ctl = { s.ctl with newIfr := .due } := by
  unfold settleIfr; rw [h]; rfl

theorem settleIfr_due {s : State} (h : s.ctl.newIfr = .due) :
    (settleIfr s).ctl = { s.ctl with ifrActive := true, newIfr := .settled } := by
  unfold settleIfr; rw [h]; rfl

theorem settleIfr_settled {s : State} (h : s.ctl.newIfr = .settled) : settleIfr s = s := by
  unfold settleIfr; rw [h]

/-- Settles O38: the first conversion leaves the state `inForce`, from which the jump goes where the new configuration lets it. -/
theorem newIfrTakesEffectAfterOneConversion : Obligations.NewIfrTakesEffectAfterOneConversion := by
  unfold Obligations.NewIfrTakesEffectAfterOneConversion
  refine ⟨fun b y s h => ?_, fun s => ⟨settleIfr_loading, settleIfr_due, settleIfr_settled⟩⟩
  intro f rir jumped operand w
  refine ⟨⟨_, jumpArithmetic_direct_due h, jumpedInForce_loadPc _ s⟩, fun hi hp k hk => ?_⟩
  have hr : operandReadable k b y s = true := operandReadable_due h hi hp
  have hword : wordAt s ((opAddr b y s).word 0) = w := by rw [opAddr_due h, OpAddr.word_zero]
  intro target d within
  have hconvert : convert b (jumpRel k (operandValue k b y s) (inForce s)) (inForce s) = (⟨d, true⟩, inForce s) := by
    rw [convert_settled b _ (inForce_newIfr s), jumpRel_inForce hk w hword, relIndex_inForce]
  have hjump : exec (.jumpArithmetic 1#3 k b y) s = jumpTo b (jumpRel k (operandValue k b y s) (inForce s)) id id (inForce s) :=
    jumpArithmetic_indirect_due h hk hr
  have hafter : afterConvert (inForce s) = inForce s := by rw [← convert_snd b, hconvert]
  refine ⟨fun hallowed => ?allowed, fun hdenied hrep => ?denied, fun j => ?enterA⟩
  case allowed =>
    rw [hjump, jumpTo_ok _ _ _ _ _ (by rw [hconvert, hafter, destAllowed_inForce]; exact hallowed), hconvert, hafter]
    exact ⟨_, rfl, jumpedInForce_loadPc d s⟩
  case denied =>
    obtain ⟨hf3, hout⟩ := hdenied
    have hdest : destAllowed ⟨d, true⟩ (inForce s) = false := by
      rw [← Bool.not_eq_true, destAllowed_inForce]
      exact fun hallowed => hallowed.elim (fun hne => hne hf3) hout
    rw [hjump, jumpTo_denied _ _ _ _ _ (by rw [hconvert, hafter]; exact hdest), hconvert, hafter]
    exact jump_denied_due h hk hrep d
  case enterA =>
    obtain ⟨t, ht, ha, hactive, hsettled⟩ := enterA_due h hk hr j
    refine ⟨t, ht, ?_, hactive, hsettled⟩
    rw [ha, ← hword]
    rcases storageOperand_cases hk with rfl | rfl | rfl | rfl | rfl <;> rfl

end Sys2Proof.Machine
end

section
/-! The ones-complement adder and subtracter of any width (42_arith_integer.md R262 to R264), as numbers. -/

namespace Sys2Proof.Machine

open Sys2Proof

section

variable {w : Nat} (a b : BitVec w)

theorem onesAdd_toNat : (onesAdd a b).toNat =
    if a.toNat + b.toNat < 2 ^ w - 1 then a.toNat + b.toNat else a.toNat + b.toNat - (2 ^ w - 1) := by
  have ha := a.isLt
  have hb := b.isLt
  rw [onesAdd, BitVec.toNat_ofNat, Nat.mod_eq_of_lt]
  split <;> omega

theorem onesSub_toNat : (onesSub a b).toNat =
    if b.toNat ≤ a.toNat then a.toNat - b.toNat else a.toNat + (2 ^ w - 1) - b.toNat := by
  have ha := a.isLt
  have hb := b.isLt
  rw [onesSub, BitVec.toNat_ofNat, Nat.mod_eq_of_lt]
  split <;> omega

/-- Addition takes the complement away (R262). -/
theorem onesAdd_eq_onesSub_not : onesAdd a b = onesSub a (~~~b) := by
  have ha := a.isLt
  have hb := b.isLt
  apply BitVec.eq_of_toNat_eq
  rw [onesAdd_toNat, onesSub_toNat, BitVec.toNat_not]
  split <;> split <;> omega

theorem onesAdd_comm : onesAdd a b = onesAdd b a := by
  unfold onesAdd
  rw [Nat.add_comm]

theorem onesSub_self : onesSub a a = 0 := by
  apply BitVec.eq_of_toNat_eq
  rw [onesSub_toNat, if_pos le_rfl, Nat.sub_self]
  rfl

variable {a b}

/-- A sum is −0 only where both terms are (R264). -/
theorem onesAdd_eq_allOnes_iff : onesAdd a b = BitVec.allOnes w ↔ a = BitVec.allOnes w ∧ b = BitVec.allOnes w := by
  have ha := a.isLt
  have hb := b.isLt
  simp only [← BitVec.toNat_inj, onesAdd_toNat, BitVec.toNat_allOnes]
  split <;> omega

/-- A difference is −0 only where −0 is less +0 (R264). -/
theorem onesSub_eq_allOnes_iff : onesSub a b = BitVec.allOnes w ↔ a = BitVec.allOnes w ∧ b = 0 := by
  have ha := a.isLt
  have hb := b.isLt
  simp only [← BitVec.toNat_inj, onesSub_toNat, BitVec.toNat_allOnes, BitVec.ofNat_eq_ofNat, BitVec.toNat_zero]
  split <;> omega

/-- Less −0 is less +0. -/
theorem onesSub_allOnes_right (h : a ≠ BitVec.allOnes w) : onesSub a (BitVec.allOnes w) = onesSub a 0 := by
  have ha := a.isLt
  rw [ne_eq, ← BitVec.toNat_inj, BitVec.toNat_allOnes] at h
  apply BitVec.eq_of_toNat_eq
  rw [onesSub_toNat, onesSub_toNat, BitVec.toNat_allOnes, BitVec.ofNat_eq_ofNat, BitVec.toNat_zero, if_neg (by omega),
    if_pos (Nat.zero_le _), Nat.add_sub_cancel, Nat.sub_zero]

/-- From −0 is from +0. -/
theorem onesSub_allOnes_left (h : b ≠ 0) : onesSub (BitVec.allOnes w) b = onesSub 0 b := by
  have hb := b.isLt
  rw [ne_eq, ← BitVec.toNat_inj, BitVec.ofNat_eq_ofNat, BitVec.toNat_zero] at h
  apply BitVec.eq_of_toNat_eq
  rw [onesSub_toNat, onesSub_toNat, BitVec.toNat_allOnes, BitVec.ofNat_eq_ofNat, BitVec.toNat_zero, if_pos (by omega),
    if_neg (by omega), Nat.zero_add]

end

/-- Settles O50: the laws hold at every width. -/
theorem onesComplementAdder : Obligations.OnesComplementAdder := by
  unfold Obligations.OnesComplementAdder
  intro laws
  have hlaws : ∀ w, laws w := fun w a b => ⟨onesAdd_toNat a b, onesSub_toNat a b, onesAdd_eq_onesSub_not a b, onesAdd_comm a b,
    onesSub_self a, onesAdd_eq_allOnes_iff, onesSub_eq_allOnes_iff, onesSub_allOnes_right, onesSub_allOnes_left⟩
  exact ⟨hlaws 30, hlaws 60⟩

end Sys2Proof.Machine
end

section
/-! Integer multiplication (42_arith_integer.md R268, R269). -/

namespace Sys2Proof.Machine

open Sys2Proof

/-- P after a skip from a state that has P of `s`. -/
theorem pc_skipIf {s t : State} (c : Bool) (hpc : t.pc = s.pc) : (skipIf c t).pc = pcAfter s c := by
  rw [skipIf_pc, pcAfter, pcAfter, hpc]

theorem overflow30_eq (t : State) : overflow30 t = decide (¬ t.a = if t.q.getLsbD 29 then 0o7777777777#30 else 0) := by
  rw [overflow30, BitVec.msb_eq_getLsbD_last, bne, beq_eq_decide, decide_not]
  rfl

theorem overflow31_eq (t : State) : overflow31 t = decide (¬ (t.a = 0 ∨ t.a = 0o7777777777#30)) := by
  simp only [overflow31, bne, beq_eq_decide, not_or, Bool.decide_and, decide_not]
  rfl

/-- The 22 column, where a product fits in Q with its sign, or in 30 bits of magnitude (R269). -/
theorem skipMultiply_eq (j : BitVec 3) (t : State) : skipMultiply j t =
    (let fits30 := t.a = (if t.q.getLsbD 29 then 0o7777777777#30 else 0)
     let fits31 := t.a = 0 ∨ t.a = 0o7777777777#30
     decide (j = 1#3 ∨ j = 6#3 ∨ (j = 2#3 ∧ fits30) ∨ (j = 3#3 ∧ ¬ fits30) ∨ (j = 4#3 ∧ fits31) ∨ (j = 5#3 ∧ ¬ fits31))) := by
  rcases designator_cases j with rfl | rfl | rfl | rfl | rfl | rfl | rfl | rfl <;> simp [skipMultiply, overflow30_eq, overflow31_eq]

theorem skipMultiply_ofRegisters (j : BitVec 3) : OfRegisters (skipMultiply j) := by
  intro s t ha hq
  unfold skipMultiply overflow30 overflow31
  rw [ha, hq]

/-- The product by the signs of Q and the operand (R268, D22). -/
theorem product_eq (q v : Word) : product q v =
    (let p : DWord := BitVec.ofNat 60 ((magnitude q).toNat * (magnitude v).toNat)
     if q.getLsbD 29 = v.getLsbD 29 then p else ~~~p) := by
  simp only [product, BitVec.msb_eq_getLsbD_last, beq_iff_eq]

/-- What 22 leaves in AQ: with k = 7 and a negative Q the complement of the product (R268). -/
def productFor (k : BitVec 3) (q v : Word) : DWord :=
  if k = 7#3 ∧ q.getLsbD 29 = true then ~~~product q v else product q v

section

variable {j k b : BitVec 3} {y : BitVec 15} {s : State}

theorem exec_multiply (hr : operandReadable k b y s = true) : exec (.multiply j k b y) s =
    (let u := setAq (productFor k s.q (operandValue k b y s)) (operandNote k b y s)
     .next (skipIf (skipMultiply j u) u)) := by
  show execMultiply j k b y s = _
  rw [execMultiply, readOperand_ok k b y s hr, Res.andThen_ok]
  simp only [operandNote_q, productFor, BitVec.msb_eq_getLsbD_last, Bool.and_eq_true, beq_iff_eq]

end

/-- Settles O4: AQ is written with the product of the old Q, and the column is on the AQ written. -/
theorem multiplyCompletes : Obligations.MultiplyCompletes := by
  unfold Obligations.MultiplyCompletes
  intro j k b y s hr v p signed
  refine ⟨_, exec_multiply hr, ?product, ?skip, skipIf_ctl _ _, skipIf_kept _ (setAq_kept _ (operandNote_kept k b y s))⟩
  case product =>
    rw [skipIf_a, skipIf_q, aq_setAq, productFor, product_eq]
  case skip =>
    have hpc : (setAq (productFor k s.q v) (operandNote k b y s)).pc = s.pc := operandNote_pc k b y s
    exact ((skipMultiply_ofRegisters j).pc_skipIf hpc).trans (congrArg _ (skipMultiply_eq j _))

end Sys2Proof.Machine
end

section
/-! Integer division (42_arith_integer.md R270 to R276): what DIVIDE ends in, case by case. -/

namespace Sys2Proof.Machine

open Sys2Proof

/-! ## The column of 23 -/

/-- The 23 column on an overflow indication and a sensed remainder (R276). -/
theorem skipDivide_eq (j : BitVec 3) (ovf : Bool) (x : Word) : skipDivide j ovf x =
    decide (j = 1#3 ∨ (j = 2#3 ∧ ovf = true) ∨ (j = 3#3 ∧ ovf = false) ∨ (j = 4#3 ∧ x = 0) ∨ (j = 5#3 ∧ x ≠ 0) ∨
      (j = 6#3 ∧ x.getLsbD 29 = false) ∨ (j = 7#3 ∧ x.getLsbD 29 = true)) := by
  rcases designator_cases j with rfl | rfl | rfl | rfl | rfl | rfl | rfl | rfl <;>
    simp [skipDivide, BitVec.msb_eq_getLsbD_last, beq_eq_decide, bne]

/-- A number that leaves the sign bit free is a word. -/
theorem toNat_ofNat_of_fits {m : Nat} (h : m < 2 ^ 29) : (BitVec.ofNat 30 m).toNat = m := by
  rw [BitVec.toNat_ofNat]
  omega

/-- The column where the quotient fits: a remainder without a sign is never sensed as negative. -/
theorem skipDivide_fits (j : BitVec 3) {m : Nat} (h : m < 2 ^ 29) : skipDivide j false (BitVec.ofNat 30 m) =
    decide (j = 1#3 ∨ j = 3#3 ∨ j = 6#3 ∨ (j = 4#3 ∧ m = 0) ∨ (j = 5#3 ∧ m ≠ 0)) := by
  have hm := toNat_ofNat_of_fits h
  have hsign : (BitVec.ofNat 30 m).getLsbD 29 = false := by rw [BitVec.getLsbD, hm, Nat.testBit_lt_two_pow h]
  have hzero : BitVec.ofNat 30 m = 0 ↔ m = 0 := by rw [← BitVec.toNat_inj, hm]; rfl
  simp only [skipDivide_eq, hsign, ne_eq, hzero, Bool.false_eq_true, and_false, false_or, or_false, and_true]
  exact decide_eq_decide.2 (by tauto)

/-- The column on a remainder of zero. -/
theorem skipDivide_zero (j : BitVec 3) : skipDivide j false 0 = decide (j = 1#3 ∨ j = 3#3 ∨ j = 4#3 ∨ j = 6#3) := by
  revert j
  decide

/-! ## Magnitudes -/

/-- A magnitude has no sign bit. -/
theorem magnitude_toNat_lt (x : Word) : (magnitude x).toNat < 2 ^ 29 := by
  have hsign : (magnitude x).msb = false := by
    unfold magnitude
    split
    case isTrue h => rw [BitVec.msb_not, h]; rfl
    case isFalse h => exact eq_false_of_ne_true h
  simpa using BitVec.toNat_lt_of_msb_false hsign

/-- Both zeros have the magnitude 0. -/
theorem magnitude_of_zero {v : Word} (h : v = 0 ∨ v = 0o7777777777#30) : (magnitude v).toNat = 0 := by
  rcases h with rfl | rfl <;> rfl

/-- The lower word of the magnitude of AQ is Q, complemented where AQ is negative. -/
theorem magnitude_aq_low (s : State) : (magnitude (aq s)).setWidth 30 = if s.a.getLsbD 29 then ~~~s.q else s.q := by
  have hlow : (aq s).setWidth 30 = s.q := BitVec.setWidth_append_eq_right
  rw [magnitude, msb_aq]
  split
  · rw [BitVec.setWidth_not (by decide), hlow]
  · exact hlow

/-! ## The ends of 23 -/

/-- The correction of a result: complemented where the signs of the dividend and the divisor differ (R270). -/
def bySigns (a v x : Word) : Word := if a.getLsbD 29 ≠ v.getLsbD 29 then ~~~x else x

theorem bySigns_eq (a v x : Word) : (if (a.msb != v.msb) = true then ~~~x else x) = bySigns a v x := by
  simp only [bySigns, BitVec.msb_eq_getLsbD_last, bne_iff_ne]

/-- The quotient of R273 after its correction. -/
theorem bySigns_allOnes (a v : Word) :
    bySigns a v (BitVec.allOnes 30) = if a.getLsbD 29 = v.getLsbD 29 then 0o7777777777#30 else 0 := by
  unfold bySigns
  by_cases h : a.getLsbD 29 = v.getLsbD 29
  · rw [if_pos h, if_neg (not_not.2 h)]
    rfl
  · rw [if_neg h, if_pos h]
    rfl

/-- The remainder of R273 after its correction is Q, complemented by the divisor's sign alone. -/
theorem bySigns_sensed (a v q : Word) :
    bySigns a v (if a.getLsbD 29 then ~~~q else q) = if v.getLsbD 29 then ~~~q else q := by
  unfold bySigns
  cases a.getLsbD 29 <;> cases v.getLsbD 29 <;> simp

/-- The end of a division that leaves a quotient and a remainder and skips by the column of the uncorrected remainder (D23). -/
def divided (j : BitVec 3) (v quot rem : Word) (ovf : Bool) (t : State) : State :=
  skipIf (skipDivide j ovf rem) ((t.setQ (bySigns t.a v quot)).setA (bySigns t.a v rem))

section

variable (j : BitVec 3) {v : Word} {t : State}

theorem magnitude_ne_zero (hd : (magnitude v).toNat ≠ 0) : magnitude v ≠ 0 := fun h => hd (congrArg BitVec.toNat h)

/-- A zero divisor (R273). -/
theorem divideBy_zero (hd : (magnitude v).toNat = 0) :
    divideBy j v t = .next (divided j v (BitVec.allOnes 30) ((magnitude (aq t)).setWidth 30) true t) := by
  have hzero : magnitude v = 0 := BitVec.eq_of_toNat_eq hd
  simp only [divideBy, if_pos hzero, bySigns_eq, divided]

/-- A quotient that fits (R270). -/
theorem divideBy_fits (hd : (magnitude v).toNat ≠ 0) (hq : (magnitude (aq t)).toNat / (magnitude v).toNat < 2 ^ 29)
    (hn : ¬ ((magnitude (aq t)).toNat = 0 ∧ t.a.getLsbD 29 ≠ v.getLsbD 29)) :
    divideBy j v t = .next (divided j v (BitVec.ofNat 30 ((magnitude (aq t)).toNat / (magnitude v).toNat))
      (BitVec.ofNat 30 ((magnitude (aq t)).toNat % (magnitude v).toNat)) false t) := by
  have hdividend : ¬ (magnitude (aq t) = 0 ∧ (t.a.msb != v.msb) = true) := by
    rw [BitVec.msb_eq_getLsbD_last, BitVec.msb_eq_getLsbD_last, bne_iff_ne]
    exact fun ⟨hzero, hunlike⟩ => hn ⟨congrArg BitVec.toNat hzero, hunlike⟩
  simp only [divideBy, if_neg (magnitude_ne_zero hd), if_neg (Nat.not_le.2 hq), if_neg hdividend, bySigns_eq, divided]

/-- A quotient that does not fit (R272, U8). -/
theorem divideBy_overflow (hd : (magnitude v).toNat ≠ 0) (hq : 2 ^ 29 ≤ (magnitude (aq t)).toNat / (magnitude v).toNat) :
    ∃ x, divideBy j v t = .next (skipIf (skipDivide j true x) (spend (freeA (t.setQ (bySigns t.a v 0))))) := by
  refine ⟨freeValue (freeA (t.setQ (bySigns t.a v 0))), ?_⟩
  simp only [divideBy, if_neg (magnitude_ne_zero hd), if_pos hq, bySigns_eq]

/-- A zero dividend and a divisor of the other sign (R271, U9). -/
theorem divideBy_zeroDividend (hd : (magnitude v).toNat ≠ 0) (hn : (magnitude (aq t)).toNat = 0)
    (hunlike : t.a.getLsbD 29 ≠ v.getLsbD 29) : divideBy j v t = .next (skipIf (skipDivide j false 0) (freeAq t)) := by
  have hdividend : magnitude (aq t) = 0 ∧ (t.a.msb != v.msb) = true := by
    rw [BitVec.msb_eq_getLsbD_last, BitVec.msb_eq_getLsbD_last, bne_iff_ne]
    exact ⟨BitVec.eq_of_toNat_eq hn, hunlike⟩
  have hquot : ¬ 2 ^ 29 ≤ (magnitude (aq t)).toNat / (magnitude v).toNat := by rw [hn, Nat.zero_div]; decide
  simp only [divideBy, if_neg (magnitude_ne_zero hd), if_neg hquot, if_pos hdividend]
  rw [hn, Nat.zero_mod]
  rfl

end

section

variable {j k b : BitVec 3} {y : BitVec 15} {s t : State}

theorem aq_operandNote : aq (operandNote k b y s) = aq s := aq_ofRegisters _ _ (operandNote_a k b y s) (operandNote_q k b y s)

theorem exec_divide (hk : k ≠ 7#3) (hr : operandReadable k b y s = true) :
    exec (.divide j k b y) s = divideBy j (operandValue k b y s) (operandNote k b y s) := by
  show execDivide j k b y s = _
  rw [execDivide, notSevenK, if_pos (bne_iff_ne.2 hk), readOperand_ok k b y s hr, Res.andThen_ok]

/-- What a division that leaves a quotient and a remainder writes, and what it keeps. -/
theorem divided_frame (v quot rem : Word) (ovf : Bool) (ht : t = divided j v quot rem ovf (operandNote k b y s)) :
    t.q = bySigns s.a v quot ∧ t.a = bySigns s.a v rem ∧ t.pc = pcAfter s (skipDivide j ovf rem) ∧
      t.ctl = (operandNote k b y s).ctl ∧ Kept s t := by
  subst ht
  refine ⟨?quot, ?rem, pc_skipIf _ (operandNote_pc k b y s), skipIf_ctl _ _,
    skipIf_kept _ (setA_kept _ (setQ_kept _ (operandNote_kept k b y s)))⟩
  case quot =>
    rw [divided, skipIf_q, operandNote_a]
    rfl
  case rem =>
    rw [divided, skipIf_a, operandNote_a]
    rfl

end

/-- Settles O5, by the ends of a division by a nonzero divisor: the quotient fits, it does not, or the dividend is a zero of the other
sign. -/
theorem divideCompletes : Obligations.DivideCompletes := by
  unfold Obligations.DivideCompletes
  constructor
  · intro j k b y s hk hr v n d unlike hd hq hn
    have hexec := exec_divide (j := j) hk hr
    rw [divideBy_fits j hd (by rwa [aq_operandNote]) (by rwa [aq_operandNote, operandNote_a]), aq_operandNote] at hexec
    obtain ⟨hquot, hrem, hpc, hctl, hkept⟩ := divided_frame v _ _ false rfl
    have hsmall : n % d < 2 ^ 29 := (Nat.mod_lt _ (Nat.pos_of_ne_zero hd)).trans (magnitude_toNat_lt v)
    refine ⟨_, hexec, fun hlike => ?like, fun hunlike => ?unlike, ?skip, hctl, hkept⟩
    case like =>
      rw [hquot, hrem, bySigns, bySigns, if_neg hlike, if_neg hlike]
      exact ⟨toNat_ofNat_of_fits hq, toNat_ofNat_of_fits hsmall⟩
    case unlike =>
      rw [hquot, hrem, bySigns, bySigns, if_pos hunlike, if_pos hunlike, BitVec.not_not, BitVec.not_not]
      exact ⟨toNat_ofNat_of_fits hq, toNat_ofNat_of_fits hsmall⟩
    case skip => exact hpc.trans (congrArg _ (skipDivide_fits j hsmall))
  · intro j k b y s hk hr v n d unlike hd
    have hexec := exec_divide (j := j) hk hr
    refine ⟨fun hq => ?overflow, fun ⟨hn, hunlike⟩ => ?zeroDividend⟩
    case overflow =>
      obtain ⟨x, hx⟩ := divideBy_overflow j (t := operandNote k b y s) hd (by rwa [aq_operandNote])
      rw [operandNote_a] at hx
      have hpc := pc_skipIf (t := spend (freeA ((operandNote k b y s).setQ (bySigns s.a v 0)))) (skipDivide j true x)
        (operandNote_pc k b y s)
      refine ⟨_, hexec.trans hx, skipIf_q _ _, ?skips, ?doesNot, skipIf_ctl _ _,
        skipIf_kept _ (spend_kept (freeA_kept (setQ_kept _ (operandNote_kept k b y s))))⟩
      case skips => rintro (rfl | rfl) <;> exact hpc
      case doesNot => rintro (rfl | rfl) <;> exact hpc
    case zeroDividend =>
      rw [divideBy_zeroDividend j hd (by rwa [aq_operandNote]) (by rwa [operandNote_a])] at hexec
      refine ⟨_, hexec, ?skip, skipIf_ctl _ _, skipIf_kept _ (freeQ_kept (freeA_kept (operandNote_kept k b y s)))⟩
      have hpc := pc_skipIf (t := freeAq (operandNote k b y s)) (skipDivide j false 0) (operandNote_pc k b y s)
      exact hpc.trans (congrArg _ (skipDivide_zero j))

/-- Settles O6: the end for a zero divisor leaves a quotient of ones and the lower word of the dividend's magnitude, both corrected by the
signs. -/
theorem divideByZeroCompletes : Obligations.DivideByZeroCompletes := by
  unfold Obligations.DivideByZeroCompletes
  intro j k b y s hk hr v hv neg minus sensed
  have hexec := exec_divide (j := j) hk hr
  rw [divideBy_zero j (magnitude_of_zero hv), aq_operandNote, magnitude_aq_low] at hexec
  obtain ⟨hquot, hrem, hpc, hctl, hkept⟩ := divided_frame v _ sensed true rfl
  refine ⟨_, hexec, hquot.trans (bySigns_allOnes s.a v), hrem.trans (bySigns_sensed s.a v s.q), ?skip, hctl, hkept⟩
  rw [hpc, skipDivide_eq]
  simp only [and_true, Bool.true_eq_false, and_false, false_or]

end Sys2Proof.Machine
end

section
/-! The result formation `fres` as arithmetic of rationals (43_arith_float.md R301, R303): its exponent, its truncated fraction, and what it
leaves for an exact result. -/

namespace Sys2Proof.Machine

open Sys2Proof

/-- A non-negative rational as `fres` takes it: mag · 2^exp2 with δ units left below it, which `sticky` tells of; a magnitude with a
remainder has at least the 48 bits of a fraction. -/
structure FpScaled (v δ : ℚ) (mag : Nat) (exp2 : Int) (sticky : Bool) : Prop where
  value : v = (mag + δ) * 2 ^ exp2
  nonneg : 0 ≤ δ
  lt_one : δ < 1
  exact_iff : δ = 0 ↔ sticky = false
  enough : sticky = true → 2 ^ 47 ≤ mag

namespace FpScaled

variable {v δ : ℚ} {mag : Nat} {exp2 : Int} {sticky : Bool}

theorem eq_zero_iff (h : FpScaled v δ mag exp2 sticky) : v = 0 ↔ mag = 0 := by
  have hpos : (0 : ℚ) < 2 ^ exp2 := by positivity
  rw [h.value, mul_eq_zero_iff_right hpos.ne']
  constructor
  · intro hsum
    have hle : (mag : ℚ) ≤ 0 := by linarith [h.nonneg]
    exact_mod_cast le_antisymm hle (Nat.cast_nonneg mag)
  · rintro rfl
    have hexact : sticky = false := by
      rw [← Bool.not_eq_true]
      exact fun hs => absurd (h.enough hs) (by decide)
    rw [h.exact_iff.2 hexact, Nat.cast_zero, zero_add]

/-- The exponent of a nonzero value is that of its magnitude's bit length. -/
theorem exponent (h : FpScaled v δ mag exp2 sticky) (hmag : mag ≠ 0) {e : Int} (hl : 2 ^ (e - 1) ≤ v) (hu : v < 2 ^ e) :
    e = bitLength mag + exp2 := by
  obtain ⟨hpos, hlow, hhigh⟩ := bitLength_bounds mag hmag
  have htwo : (2 : ℚ) ≠ 0 := two_ne_zero
  have hscale : (0 : ℚ) < 2 ^ exp2 := by positivity
  have hge : (2 : ℚ) ^ ((bitLength mag : Int) - 1 + exp2) ≤ v := by
    have hcast : (2 : ℚ) ^ ((bitLength mag : Int) - 1) ≤ mag := by
      rw [show (bitLength mag : Int) - 1 = ((bitLength mag - 1 : Nat) : Int) by omega, zpow_natCast]
      exact_mod_cast hlow
    rw [h.value, zpow_add₀ htwo]
    exact mul_le_mul_of_nonneg_right (by linarith [h.nonneg]) hscale.le
  have hlt : v < (2 : ℚ) ^ ((bitLength mag : Int) + exp2) := by
    have hcast : (mag : ℚ) + 1 ≤ (2 : ℚ) ^ (bitLength mag : Int) := by
      rw [zpow_natCast]
      exact_mod_cast hhigh
    rw [h.value, zpow_add₀ htwo]
    exact mul_lt_mul_of_pos_right (by linarith [h.lt_one]) hscale
  have h1 : e - 1 < bitLength mag + exp2 := (zpow_lt_zpow_iff_right₀ one_lt_two).1 (hl.trans_lt hlt)
  have h2 : bitLength mag - 1 + exp2 < e := (zpow_lt_zpow_iff_right₀ one_lt_two).1 (hge.trans_lt hu)
  omega

/-- The value with its point before its first bit, as a 48-bit fraction and what is cut off. -/
theorem fraction (h : FpScaled v δ mag exp2 sticky) :
    v * 2 ^ (48 - ((bitLength mag : Int) + exp2)) = (mag + δ) * 2 ^ (48 - (bitLength mag : Int)) := by
  rw [h.value, mul_assoc, ← zpow_add₀ two_ne_zero]
  congr 2
  ring

/-- Where no bit is cut off the fraction is exact but for a remainder, which only a magnitude of 48 bits or more has. -/
theorem remainder_of_short (h : FpScaled v δ mag exp2 sticky) (hshort : bitLength mag < 48) : δ = 0 := by
  rw [h.exact_iff, ← Bool.not_eq_true]
  intro hs
  have hmag := h.enough hs
  obtain ⟨-, -, hhigh⟩ := bitLength_bounds mag (by omega)
  have hle : 2 ^ bitLength mag ≤ 2 ^ 47 := Nat.pow_le_pow_right (by decide) (by omega)
  omega

/-- The bits that a fraction needs are taken as they are. -/
theorem scaled_of_le (h : FpScaled v δ mag exp2 sticky) (hle : bitLength mag ≤ 48) :
    (mag + δ) * 2 ^ (48 - (bitLength mag : Int)) = fpTruncate mag + δ := by
  have hpow : (2 : ℚ) ^ (48 - (bitLength mag : Int)) = 2 ^ (48 - bitLength mag) := by
    rw [← zpow_natCast, Nat.cast_sub hle, Nat.cast_ofNat]
  have hδ : δ * 2 ^ (48 - bitLength mag) = δ := by
    rcases hle.lt_or_eq with hshort | heq
    · rw [h.remainder_of_short hshort, zero_mul]
    · rw [heq, Nat.sub_self, pow_zero, mul_one]
  rw [hpow, add_mul, hδ, fpTruncate, if_pos hle, Nat.cast_mul, Nat.cast_pow, Nat.cast_ofNat]

/-- The bits past a fraction are cut off. -/
theorem scaled_of_lt (hlt : 48 < bitLength mag) :
    (mag + δ) * 2 ^ (48 - (bitLength mag : Int)) = (mag + δ) / ((2 ^ (bitLength mag - 48) : Nat) : ℚ) := by
  rw [show 48 - (bitLength mag : Int) = -((bitLength mag - 48 : Nat) : Int) by omega, zpow_neg, zpow_natCast, div_eq_mul_inv,
    Nat.cast_pow, Nat.cast_ofNat]

/-- The truncated fraction is the 48-bit floor. -/
theorem floor_fraction (h : FpScaled v δ mag exp2 sticky) :
    ⌊v * 2 ^ (48 - ((bitLength mag : Int) + exp2))⌋ = (fpTruncate mag : Int) := by
  have hnonneg := h.nonneg
  have hone := h.lt_one
  rw [h.fraction, Int.floor_eq_iff, Int.cast_natCast]
  rcases le_or_gt (bitLength mag) 48 with hle | hlt
  · rw [h.scaled_of_le hle]
    constructor <;> linarith
  · have hlow : ((mag / 2 ^ (bitLength mag - 48) * 2 ^ (bitLength mag - 48) : Nat) : ℚ) ≤ mag :=
      Nat.cast_le.2 (Nat.div_mul_le_self _ _)
    have hhigh : ((mag + 1 : Nat) : ℚ) ≤ ((mag / 2 ^ (bitLength mag - 48) + 1) * 2 ^ (bitLength mag - 48) : Nat) :=
      Nat.cast_le.2 (Nat.lt_mul_of_div_lt (Nat.lt_succ_self _) (by positivity))
    have hpos : (0 : ℚ) < (2 ^ (bitLength mag - 48) : Nat) := Nat.cast_pos.2 (by positivity)
    rw [scaled_of_lt hlt, fpTruncate, if_neg (Nat.not_le.2 hlt), le_div_iff₀ hpos, div_lt_iff₀ hpos]
    rw [Nat.cast_mul] at hlow hhigh
    rw [Nat.cast_add, Nat.cast_add, Nat.cast_one] at hhigh
    constructor <;> linarith

/-- A fraction from which the floor cuts nothing off is exact. -/
theorem fpExact_of_floor (h : FpScaled v δ mag exp2 sticky)
    (hfloor : (⌊v * 2 ^ (48 - ((bitLength mag : Int) + exp2))⌋ : ℚ) = v * 2 ^ (48 - ((bitLength mag : Int) + exp2))) :
    fpExact mag sticky = true := by
  rw [h.floor_fraction, h.fraction, Int.cast_natCast] at hfloor
  rw [fpExact, Bool.and_eq_true, Bool.not_eq_true', ← h.exact_iff, beq_iff_eq]
  rcases le_or_gt (bitLength mag) 48 with hle | hlt
  · rw [h.scaled_of_le hle, left_eq_add] at hfloor
    exact ⟨hfloor, by rw [Nat.sub_eq_zero_of_le hle, pow_zero, Nat.mod_one]⟩
  · rw [scaled_of_lt hlt, eq_div_iff (Nat.cast_ne_zero.2 (by positivity)), ← Nat.cast_mul] at hfloor
    have hge : mag ≤ fpTruncate mag * 2 ^ (bitLength mag - 48) :=
      (Nat.cast_le (α := ℚ)).1 (by rw [hfloor]; linarith [h.nonneg])
    have hle : fpTruncate mag * 2 ^ (bitLength mag - 48) < mag + 1 :=
      (Nat.cast_lt (α := ℚ)).1 (by rw [hfloor, Nat.cast_add, Nat.cast_one]; linarith [h.lt_one])
    have heq : fpTruncate mag * 2 ^ (bitLength mag - 48) = mag := by omega
    rw [heq, left_eq_add] at hfloor
    exact ⟨hfloor, Nat.mod_eq_zero_of_dvd (Dvd.intro_left _ heq)⟩

end FpScaled

/-! ## What `fres` leaves -/

section

variable {s : State} {b : BitVec 3} {y : BitVec 15} {r δ : ℚ} {neg sticky : Bool} {mag : Nat} {exp2 : Int}

theorem freeAq_kept {t : State} (h : Kept s t) : Kept s (freeAq t) := freeQ_kept (freeA_kept h)

theorem Kept.keptButMemory {t : State} (h : Kept s t) : KeptButMemory s t := by
  obtain ⟨hindex, hio, hsystem, -⟩ := h
  exact ⟨hindex, hio, hsystem⟩

/-- An unconditional interrupt taken outside a Repeat sequence after the operand's address has been noted, with AQ free (U10). -/
theorem raise_freeAq_noteStorage (x : UncondInt) (hrep : s.rep.active = false) :
    Answers (raise x none (freeAq (noteStorage b y s))) fun t =>
      EnteredFault (x.location s.cfg) s t ∧ IfrEntered (noteStorage b y s) t ∧ SameMemory s t := by
  have hkept : Kept s (freeAq (noteStorage b y s)) := freeAq_kept (noteStorage_kept b y s)
  have hctl : ControlKept s (freeAq (noteStorage b y s)) := noteStorage_controlKept b y s
  have hpc : (freeAq (noteStorage b y s)).setPc s.pc = freeAq (noteStorage b y s) :=
    congrArg (freeAq (noteStorage b y s)).setPc (noteStorage_pc b y s).symm
  obtain ⟨hentered, hifr, -, -, ⟨hwords, hparity⟩, hpending, hsel⟩ :=
    enter_frame (.uncond x) none (freeAq (noteStorage b y s)) ((congrArg RepeatState.active (noteStorage_rep b y s)).trans hrep)
  have hbut := hkept.keptButMemory
  obtain ⟨-, -, ⟨-, -, -, -, -, -, -, hcfg⟩, hwords', hparity'⟩ := hkept
  refine ⟨_, rfl, ?entered, hifr, fun a => (hwords a).trans (hwords' a), hparity.trans hparity'⟩
  refine enteredFault_congr hbut hctl s.pc ?_
  rw [hpc]
  refine ⟨?_, ?_⟩
  · rw [← hcfg]
    exact hentered
  · rw [hsel, hpending]
    exact ⟨rfl, rfl, rfl, rfl, rfl⟩

/-- What AQ holds for a nonzero result in range: its sign, normalized, and the 48-bit floor where that is the rounding or nothing is cut
off. -/
theorem fpRounded_eq_fpBits (rule : FpRound) (h : FpScaled |r| δ mag exp2 sticky)
    (hrule : rule = .truncate ∨
      (⌊|r| * 2 ^ (48 - ((bitLength mag : Int) + exp2))⌋ : ℚ) = |r| * 2 ^ (48 - ((bitLength mag : Int) + exp2))) :
    fpRounded rule neg mag exp2 sticky = fpBits neg ((bitLength mag : Int) + exp2 + 1024).toNat
      ⌊|r| * 2 ^ (48 - ((bitLength mag : Int) + exp2))⌋.toNat := by
  rw [h.floor_fraction, Int.toNat_natCast, fpRounded, if_pos (hrule.imp_right h.fpExact_of_floor)]
  rfl

/-- `fres` of the exact result after the operand's address has been noted. -/
theorem fpResult_completes (hrep : s.rep.active = false) (h : FpScaled |r| δ mag exp2 sticky) (hneg : r ≠ 0 → neg = decide (r < 0)) :
    FpCompletes (fpResult neg mag exp2 sticky (noteStorage b y s)) r (noteStorage b y s) s := by
  have hkept := noteStorage_kept b y s
  constructor
  · intro hr
    have hmag : mag = 0 := h.eq_zero_iff.1 (abs_eq_zero.2 hr)
    exact ⟨_, if_pos hmag, aq_setAq 0 _, noteStorage_pc b y s, rfl, setAq_kept 0 hkept⟩
  · intro e hl hu
    have hr : r ≠ 0 := abs_pos.1 (lt_of_lt_of_le (by positivity) hl)
    have hmag : mag ≠ 0 := fun h0 => hr (abs_eq_zero.1 (h.eq_zero_iff.2 h0))
    obtain rfl := h.exponent hmag hl hu
    obtain rfl := hneg hr
    rw [fpResult, if_neg hmag]
    refine ⟨fun hmin hmax => ?inRange, fun hover => ?overflow, fun hunder => ?underflow⟩
    case inRange =>
      obtain ⟨hsign, hfirst⟩ := fpRounded_normalized s.cfg.fpRound (decide (r < 0)) mag exp2 sticky hmag hmin hmax
      refine ⟨_, (if_neg (not_lt.2 hmax)).trans (if_neg (not_lt.2 hmin)), ?_⟩
      simp only [aq_setAq, noteStorage_cfg, hsign, hfirst, true_and]
      exact ⟨fpRounded_eq_fpBits _ h, Bool.not_ne_self _, noteStorage_pc b y s, rfl, setAq_kept _ hkept⟩
    case overflow =>
      rw [if_pos hover]
      exact raise_freeAq_noteStorage .fpOverflow hrep
    case underflow =>
      rw [if_neg (by omega), if_pos hunder]
      exact raise_freeAq_noteStorage .fpUnderflow hrep

/-- `fres` of an integer times a power of two. -/
theorem fpResult_int_completes (hrep : s.rep.active = false) (f : Int) (k : Int) :
    FpCompletes (fpResult (decide (f < 0)) f.natAbs k false (noteStorage b y s)) (f * 2 ^ k) (noteStorage b y s) s := by
  have hpos : (0 : ℚ) < 2 ^ k := by positivity
  refine fpResult_completes (δ := 0) hrep ⟨?_, le_rfl, one_pos, by simp, by simp⟩ fun _ => decide_eq_decide.2 ?_
  · rw [abs_mul, abs_of_pos hpos, add_zero, Nat.cast_natAbs, Int.cast_abs]
  · rw [← Int.cast_lt_zero (R := ℚ)]
    exact ⟨fun hf => mul_neg_of_neg_of_pos hf hpos, fun hr => neg_of_mul_neg_left hr hpos.le⟩

end

/-! ## Floating-point numbers -/

section

variable {x m : DWord}

theorem fpZero_iff : fpZero x = true ↔ x = 0 ∨ x = BitVec.allOnes 60 := by
  rw [fpZero, Bool.or_eq_true, beq_iff_eq, beq_iff_eq]

/-- A magnitude has the bits of its number, complemented by the sign (R301). -/
theorem getLsbD_magnitude (x : DWord) {i : Nat} (hi : i < 60) : (magnitude x).getLsbD i = (x.getLsbD i ^^ x.getLsbD 59) := by
  rw [magnitude, BitVec.msb_eq_getLsbD_last]
  cases x.getLsbD 59 <;> simp [hi]

/-- A normalized number is a zero, or its first fraction bit is not its sign (R302). -/
theorem fpNormalized_iff : fpNormalized x = true ↔ (x = 0 ∨ x = BitVec.allOnes 60) ∨ x.getLsbD 47 ≠ x.getLsbD 59 := by
  rw [fpNormalized, Bool.or_eq_true, fpZero_iff, getLsbD_magnitude x (by decide), ← bne_iff_ne]

/-- The value of a number is its signed fraction by its characteristic (R301). -/
theorem fpValue_eq (x : DWord) : fpValue x = fpSigned x * 2 ^ ((fpChar x : Int) - 1072) := by
  have hmag : magnitude x = if x.getLsbD 59 then ~~~x else x := by rw [magnitude, BitVec.msb_eq_getLsbD_last]
  rw [fpValue, fpSigned]
  simp only [fpZero_iff, fpChar, fpFrac, ← hmag, BitVec.msb_eq_getLsbD_last]
  by_cases hzero : x = 0 ∨ x = BitVec.allOnes 60
  · rw [if_pos hzero, if_pos hzero, Int.cast_zero, zero_mul]
  · rw [if_neg hzero, if_neg hzero]
    cases x.getLsbD 59
    · rw [if_neg (by decide), if_neg (by decide), one_mul, Int.cast_natCast]
    · rw [if_pos rfl, if_pos rfl, neg_one_mul, Int.cast_neg, Int.cast_natCast]

/-- The value of a number by a lower characteristic. -/
theorem fpValue_lower {low : Nat} (h : low ≤ fpChar x) :
    fpValue x = ((fpSigned x * 2 ^ (fpChar x - low) : Int) : ℚ) * 2 ^ ((low : Int) - 1072) := by
  rw [fpValue_eq, Int.cast_mul, Int.cast_pow, Int.cast_ofNat, ← zpow_natCast, mul_assoc, ← zpow_add₀ two_ne_zero, Nat.cast_sub h]
  congr 2
  ring

theorem fpFrac_lt (x : DWord) : fpFrac x < 2 ^ 48 := BitVec.isLt _

/-- A fraction that begins with a 1 (R302). -/
theorem fpFrac_ge_of_bit (h : x.getLsbD 47 ≠ x.getLsbD 59) : 2 ^ 47 ≤ fpFrac x := by
  refine Nat.ge_two_pow_of_testBit ?_
  rw [fpFrac, BitVec.testBit_toNat, BitVec.getLsbD_extractLsb', getLsbD_magnitude x (by decide)]
  exact bne_iff_ne.2 h

theorem fpFrac_ge (hzero : fpZero x = false) (hnorm : fpNormalized x = true) : 2 ^ 47 ≤ fpFrac x :=
  fpFrac_ge_of_bit ((fpNormalized_iff.1 hnorm).resolve_left fun h => Bool.eq_false_iff.1 hzero (fpZero_iff.2 h))

theorem fpSigned_of_nonzero (h : fpZero x = false) : fpSigned x = if x.msb then -(fpFrac x : Int) else fpFrac x := by
  rw [fpSigned, h, if_neg (by decide)]

theorem natAbs_fpSigned (h : fpZero x = false) : (fpSigned x).natAbs = fpFrac x := by
  rw [fpSigned_of_nonzero h]
  split <;> simp

end

end Sys2Proof.Machine
end

section
/-! Floating-point arithmetic: each instruction hands its exact result to `fres` (43_arith_float.md R304 to R307). -/

namespace Sys2Proof.Machine

open Sys2Proof

section

variable {s : State} {b : BitVec 3} {y : BitVec 15}

/-! ## Addition and subtraction -/

/-- The exact sum or difference, at the lower of the two characteristics. -/
theorem fpSum_completes (negate : Bool) (m : DWord) (hrep : s.rep.active = false) :
    FpCompletes (fpSum negate m (noteStorage b y s)) (if negate then fpValue (aq s) - fpValue m else fpValue (aq s) + fpValue m)
      (noteStorage b y s) s := by
  have hx := fpValue_lower (x := aq s) (min_le_left _ (fpChar m))
  have hm := fpValue_lower (x := m) (min_le_right (fpChar (aq s)) _)
  rw [hx, hm, fpSum, aq_noteStorage]
  cases negate
  case false =>
    rw [if_neg (by decide), ← add_mul, ← Int.cast_add]
    exact fpResult_int_completes hrep _ _
  case true =>
    rw [if_pos rfl, ← sub_mul, ← Int.cast_sub]
    exact fpResult_int_completes hrep _ _

end

/-- Settles O20: both instructions form the exact sum or difference and hand it to `fres`. -/
theorem fpAddSubtractComplete : Obligations.FpAddSubtractComplete := by
  unfold Obligations.FpAddSubtractComplete
  intro b y s hrep hread x m
  constructor
  · have hexec : exec (.fpAdd b y) s = fpSum false (doubleValue b y s) (noteStorage b y s) := by
      show execFpAdd b y s = _
      rw [execFpAdd, readDouble_ok b y s hread, Res.andThen_ok]
    rw [hexec]
    exact fpSum_completes false _ hrep
  · have hexec : exec (.fpSubtract b y) s = fpSum true (doubleValue b y s) (noteStorage b y s) := by
      show execFpSubtract b y s = _
      rw [execFpSubtract, readDouble_ok b y s hread, Res.andThen_ok]
    rw [hexec]
    exact fpSum_completes true _ hrep

/-! ## Multiplication and division -/

section

variable {s : State} {b : BitVec 3} {y : BitVec 15} {x m : DWord}

/-- A product by its fractions and characteristics. -/
theorem fpValue_mul (x m : DWord) :
    fpValue x * fpValue m = ((fpSigned x * fpSigned m : Int) : ℚ) * 2 ^ ((fpChar x : Int) + fpChar m - 2144) := by
  rw [fpValue_eq, fpValue_eq, mul_mul_mul_comm, ← zpow_add₀ two_ne_zero, Int.cast_mul]
  congr 2
  ring

/-- The sign of a nonzero number is its first bit. -/
theorem fpValue_neg_iff (hzero : fpZero x = false) (hx : fpValue x ≠ 0) : fpValue x < 0 ↔ x.msb = true := by
  have hpos : (0 : ℚ) < 2 ^ ((fpChar x : Int) - 1072) := by positivity
  have hfrac : (0 : ℚ) < fpFrac x := by
    refine lt_of_le_of_ne (Nat.cast_nonneg _) fun h0 => hx ?_
    rw [fpValue_eq, mul_eq_zero_iff_right hpos.ne', Int.cast_eq_zero, ← Int.natAbs_eq_zero, natAbs_fpSigned hzero]
    exact_mod_cast h0.symm
  rw [fpValue_eq, fpSigned_of_nonzero hzero]
  cases x.msb
  · simpa using (mul_pos hfrac hpos).le
  · simpa using mul_pos hfrac hpos

/-- A nonzero quotient is negative where the signs differ. -/
theorem fpValue_div_neg (hx : fpZero x = false) (hm : fpZero m = false) (hr : fpValue x / fpValue m ≠ 0) :
    (x.msb != m.msb) = decide (fpValue x / fpValue m < 0) := by
  obtain ⟨hx0, hm0⟩ := div_ne_zero_iff.1 hr
  have hxneg := fpValue_neg_iff hx hx0
  have hmneg := fpValue_neg_iff hm hm0
  have hxpos : 0 < fpValue x ↔ x.msb = false := by rw [← Bool.not_eq_true, ← hxneg, not_lt, hx0.symm.le_iff_lt]
  have hmpos : 0 < fpValue m ↔ m.msb = false := by rw [← Bool.not_eq_true, ← hmneg, not_lt, hm0.symm.le_iff_lt]
  rw [Bool.eq_iff_iff, decide_eq_true_iff, div_neg_iff, hxneg, hmneg, hxpos, hmpos]
  cases x.msb <;> cases m.msb <;> decide

/-- The magnitude of a quotient by fractions and characteristics. -/
theorem abs_fpValue_div (x m : DWord) :
    |fpValue x / fpValue m| = ((fpSigned x).natAbs / (fpSigned m).natAbs : ℚ) * 2 ^ ((fpChar x : Int) - fpChar m) := by
  have habs : ∀ z, |fpValue z| = (fpSigned z).natAbs * 2 ^ ((fpChar z : Int) - 1072) := fun z => by
    have hpos : (0 : ℚ) < 2 ^ ((fpChar z : Int) - 1072) := by positivity
    rw [fpValue_eq, abs_mul, abs_of_pos hpos, Nat.cast_natAbs, Int.cast_abs]
  rw [abs_div, habs, habs, mul_div_mul_comm, ← zpow_sub₀ two_ne_zero]
  congr 2
  ring

/-- A quotient with sixty-four more bits, and its remainder (R307). -/
theorem fpScaled_div {a d : Nat} (k : Int) (hd : 0 < d) (henough : a ≠ 0 → 2 ^ 47 * d ≤ a * 2 ^ 64) :
    FpScaled ((a / d : ℚ) * 2 ^ k) ((a * 2 ^ 64 % d : Nat) / d) (a * 2 ^ 64 / d) (k - 64) (a * 2 ^ 64 % d != 0) := by
  have hd' : (0 : ℚ) < d := Nat.cast_pos.2 hd
  refine ⟨?value, by positivity, ?lt_one, ?exact_iff, fun hsticky => ?enough⟩
  case value =>
    have hdivmod : (d : ℚ) * (a * 2 ^ 64 / d : Nat) + (a * 2 ^ 64 % d : Nat) = a * 2 ^ 64 := by
      exact_mod_cast Nat.div_add_mod (a * 2 ^ 64) d
    have hquot : ((a * 2 ^ 64 / d : Nat) : ℚ) + (a * 2 ^ 64 % d : Nat) / d = a / d * 2 ^ 64 := by
      field_simp
      linarith
    rw [hquot, mul_assoc, ← zpow_natCast, ← zpow_add₀ two_ne_zero]
    congr 2
    push_cast
    ring
  case lt_one => exact (div_lt_one hd').2 (Nat.cast_lt.2 (Nat.mod_lt _ hd))
  case exact_iff => simp [hd'.ne']
  case enough =>
    rw [Nat.le_div_iff_mul_le hd]
    refine henough fun ha => ?_
    simp [ha] at hsticky

/-- The exact quotient of normalized numbers with its remainder discarded. -/
theorem fpDivide_completes (hrep : s.rep.active = false) (hzero : fpZero m = false) (hx : fpNormalized x = true)
    (hm : fpNormalized m = true) :
    FpCompletes (fpResult (x.msb != m.msb) ((fpSigned x).natAbs * 2 ^ 64 / fpFrac m) ((fpChar x : Int) - fpChar m - 64)
      ((fpSigned x).natAbs * 2 ^ 64 % fpFrac m != 0) (noteStorage b y s)) (fpValue x / fpValue m) (noteStorage b y s) s := by
  have hdivisor := fpFrac_ge hzero hm
  have hdivisor' := fpFrac_lt m
  have hdividend : (fpSigned x).natAbs ≠ 0 → fpZero x = false := fun h => by
    rw [← Bool.not_eq_true]
    exact fun hz => h (by rw [fpSigned, if_pos hz, Int.natAbs_zero])
  have hscaled := fpScaled_div (a := (fpSigned x).natAbs) (d := fpFrac m) ((fpChar x : Int) - fpChar m) (by omega) fun h => by
    have hge := fpFrac_ge (hdividend h) hx
    rw [natAbs_fpSigned (hdividend h)]
    omega
  rw [← natAbs_fpSigned hzero, ← abs_fpValue_div, natAbs_fpSigned hzero] at hscaled
  refine fpResult_completes hrep hscaled fun hr => fpValue_div_neg (hdividend fun h0 => hr ?_) hzero hr
  rw [fpValue_eq x, Int.natAbs_eq_zero.1 h0, Int.cast_zero, zero_mul, zero_div]

theorem freeAq_noteStorage_answers {o : Result} (ho : o = .next (freeAq (noteStorage b y s))) :
    Answers o fun t => t.pc = s.pc ∧ t.ctl = (noteStorage b y s).ctl ∧ Kept s t :=
  ⟨_, ho, noteStorage_pc b y s, rfl, freeAq_kept (noteStorage_kept b y s)⟩

end

/-- Settles O21, by the tests that 7703 and 7705 make: the divisor is a zero, then whether both operands are normalized. -/
theorem fpMultiplyDivideComplete : Obligations.FpMultiplyDivideComplete := by
  unfold Obligations.FpMultiplyDivideComplete
  intro b y s hrep hread x m zero normalized opened
  have hnormalized : (fpNormalized x && fpNormalized m) = true ↔ normalized x ∧ normalized m := by
    rw [Bool.and_eq_true, fpNormalized_iff, fpNormalized_iff]
  have hmultiply : exec (.fpMultiply b y) s =
      if fpNormalized x && fpNormalized m then
        fpResult (decide (fpSigned x * fpSigned m < 0)) (fpSigned x * fpSigned m).natAbs ((fpChar x : Int) + fpChar m - 2144) false
          (noteStorage b y s)
      else .next (freeAq (noteStorage b y s)) := by
    show execFpMultiply b y s = _
    rw [execFpMultiply, readDouble_ok b y s hread, Res.andThen_ok, aq_noteStorage]
    rfl
  have hdivide : exec (.fpDivide b y) s =
      if fpZero m then raise .fpOverflow none (freeAq (noteStorage b y s))
      else if fpNormalized x && fpNormalized m then
        fpResult (x.msb != m.msb) ((fpSigned x).natAbs * 2 ^ 64 / fpFrac m) ((fpChar x : Int) - fpChar m - 64)
          ((fpSigned x).natAbs * 2 ^ 64 % fpFrac m != 0) (noteStorage b y s)
      else .next (freeAq (noteStorage b y s)) := by
    show execFpDivide b y s = _
    rw [execFpDivide, readDouble_ok b y s hread, Res.andThen_ok, aq_noteStorage]
    rfl
  have hzero : ¬ zero m → fpZero m = false := fun h => by rwa [← Bool.not_eq_true, fpZero_iff]
  refine ⟨fun hn => ?product, fun hn => ?productOpen, fun hz => ?byZero, fun hz hn => ?quotient, fun hz hn => ?quotientOpen⟩
  case product =>
    rw [hmultiply, if_pos (hnormalized.2 hn), fpValue_mul]
    exact fpResult_int_completes hrep _ _
  case productOpen => exact freeAq_noteStorage_answers (hmultiply.trans (if_neg (mt hnormalized.1 hn)))
  case byZero =>
    rw [hdivide, if_pos (fpZero_iff.2 hz)]
    exact raise_freeAq_noteStorage .fpOverflow hrep
  case quotient =>
    obtain ⟨hx, hm⟩ := hn
    rw [hdivide, hzero hz, if_neg (by decide), if_pos (hnormalized.2 ⟨hx, hm⟩)]
    exact fpDivide_completes hrep (hzero hz) (fpNormalized_iff.2 hx) (fpNormalized_iff.2 hm)
  case quotientOpen =>
    rw [hzero hz, if_neg (by decide), if_neg (mt hnormalized.1 hn)] at hdivide
    exact freeAq_noteStorage_answers hdivide

end Sys2Proof.Machine
end

section
/-! Packing and unpacking a floating-point number (43_arith_float.md R308, R309). -/

namespace Sys2Proof.Machine

open Sys2Proof

/-! ## 7706 -/

section

variable {s : State} {b : BitVec 3} {y : BitVec 15}

/-- A number between two powers of two has the bits of the upper one. -/
theorem bitLength_eq {g p : Nat} (hl : 2 ^ p ≤ g) (hu : g < 2 ^ (p + 1)) : bitLength g = p + 1 := by
  have hg : g ≠ 0 := (lt_of_lt_of_le (Nat.two_pow_pos p) hl).ne'
  rw [bitLength, if_neg hg, (Nat.log2_eq_iff hg).2 ⟨hl, hu⟩]

/-- The 48 bits of a number from its highest bit down (R308). -/
theorem fpTruncate_eq {g p : Nat} (hl : 2 ^ p ≤ g) (hu : g < 2 ^ (p + 1)) : fpTruncate g = g * 2 ^ 47 / 2 ^ p := by
  rw [fpTruncate, bitLength_eq hl hu]
  split
  case isTrue h =>
    rw [show 2 ^ 47 = 2 ^ (48 - (p + 1)) * 2 ^ p by rw [← pow_add]; congr 1; omega, ← mul_assoc,
      Nat.mul_div_cancel _ (Nat.two_pow_pos p)]
  case isFalse h =>
    rw [show 2 ^ p = 2 ^ (p + 1 - 48) * 2 ^ 47 by rw [← pow_add]; congr 1; omega, Nat.mul_div_mul_right _ _ (Nat.two_pow_pos 47)]

/-- What 7706 answers (R308, D25). -/
theorem exec_fpPack (h : canRead (opAddr b y s) 0 s = true) :
    exec (.fpPack b y) s =
      (let g := (magnitude (aq s)).toNat
       let c : Int := ((operandWord b y 0 s).extractLsb' 0 11).toNat + (bitLength g : Int) - 48
       if g = 0 then .next (setAq 0 (noteStorage b y s))
       else if 0 ≤ c ∧ c ≤ 2047 then .next (setAq (fpBits ((aq s).getLsbD 59) c.toNat (fpTruncate g)) (noteStorage b y s))
       else .next (freeAq (noteStorage b y s))) := by
  have hsign : (noteStorage b y s).a.msb = (aq s).getLsbD 59 := by
    rw [noteStorage_a, BitVec.msb_eq_getLsbD_last, ← msb_aq, BitVec.msb_eq_getLsbD_last]
  show execFpPack b y s = _
  rw [execFpPack, readWord_ok b y s h, Res.andThen_ok, aq_noteStorage, hsign]
  rfl

/-- The number that 7706 forms, by the place of the highest 1 bit of AQ's magnitude. -/
theorem fpPack_answers (h : canRead (opAddr b y s) 0 s = true) :
    let g := (magnitude (aq s)).toNat
    let c0 := ((operandWord b y 0 s).extractLsb' 0 11).toNat
    Answers (exec (.fpPack b y) s) fun t =>
      (g = 0 → t.a ++ t.q = (0 : DWord)) ∧
      (∀ p, 2 ^ p ≤ g → g < 2 ^ (p + 1) → 47 ≤ c0 + p → c0 + p - 47 ≤ 2047 →
        t.a ++ t.q = fpBits ((aq s).getLsbD 59) (c0 + p - 47) (g * 2 ^ 47 / 2 ^ p)) ∧
      t.pc = s.pc ∧ t.ctl = (noteStorage b y s).ctl ∧ Kept s t := by
  intro g c0
  have hpc := noteStorage_pc b y s
  have hkept := noteStorage_kept b y s
  rw [exec_fpPack h]
  by_cases hg : g = 0
  · refine ⟨_, if_pos hg, fun _ => aq_setAq 0 _, fun p hl => ?_, hpc, rfl, setAq_kept 0 hkept⟩
    exact absurd (hg ▸ hl) (Nat.not_le.2 (Nat.two_pow_pos p))
  · by_cases hc : 0 ≤ (c0 : Int) + bitLength g - 48 ∧ (c0 : Int) + bitLength g - 48 ≤ 2047
    · refine ⟨_, (if_neg hg).trans (if_pos hc), fun h0 => absurd h0 hg, fun p hl hu _ _ => ?_, hpc, rfl, setAq_kept _ hkept⟩
      have hchar : ((c0 : Int) + bitLength g - 48).toNat = c0 + p - 47 := by
        rw [bitLength_eq hl hu]
        omega
      rw [aq_setAq, ← fpTruncate_eq hl hu, ← hchar]
    · refine ⟨_, (if_neg hg).trans (if_neg hc), fun h0 => absurd h0 hg, fun p hl hu _ _ => absurd ?_ hc, hpc, rfl, freeAq_kept hkept⟩
      rw [bitLength_eq hl hu]
      omega

/-! ## 7707 -/

/-- AQ after 7707: the sign fills the place of the characteristic (R309). -/
def fpExtended (x : DWord) : DWord :=
  x.extractLsb' 59 1 ++ (if x.msb then BitVec.allOnes 11 else 0) ++ x.extractLsb' 0 48

theorem getLsbD_fpExtended (x : DWord) {i : Nat} (hi : i < 60) :
    (fpExtended x).getLsbD i = if 48 ≤ i then x.getLsbD 59 else x.getLsbD i := by
  have hfill : ∀ j < 11, (if x.msb then BitVec.allOnes 11 else 0).getLsbD j = x.getLsbD 59 := fun j hj => by
    rw [BitVec.msb_eq_getLsbD_last]
    cases x.getLsbD 59
    · exact BitVec.getLsbD_zero
    · exact (BitVec.getLsbD_allOnes ..).trans (decide_eq_true hj)
  rw [fpExtended, BitVec.getLsbD_append, BitVec.getLsbD_append]
  by_cases hfrac : i < 48
  · rw [if_pos hfrac, if_neg (Nat.not_le.2 hfrac), BitVec.getLsbD_extractLsb', Nat.zero_add]
    simp [hfrac]
  · rw [if_neg hfrac, if_pos (Nat.not_lt.1 hfrac)]
    by_cases hchar : i - 48 < 11
    · rw [if_pos hchar, hfill _ hchar]
    · have htop : i = 59 := by omega
      subst htop
      simp

/-- Without its characteristic the magnitude of a number is its fraction. -/
theorem magnitude_fpExtended (x : DWord) : (magnitude (fpExtended x)).toNat = fpFrac x := by
  have hbits : magnitude (fpExtended x) = ((magnitude x).extractLsb' 0 48).setWidth 60 := by
    apply BitVec.eq_of_getLsbD_eq
    intro i hi
    rw [getLsbD_magnitude _ hi, getLsbD_fpExtended x hi, getLsbD_fpExtended x (by decide), BitVec.getLsbD_setWidth,
      BitVec.getLsbD_extractLsb', Nat.zero_add, getLsbD_magnitude x hi]
    by_cases hfrac : i < 48
    · simp [hfrac, hi, Nat.not_le.2 hfrac]
    · simp [hfrac, Nat.not_lt.1 hfrac]
  rw [hbits, BitVec.toNat_setWidth]
  exact Nat.mod_eq_of_lt ((fpFrac_lt x).trans (by decide))

/-- A number is made of its sign, characteristic and fraction (R301). -/
theorem fpBits_fields (x : DWord) : fpBits (x.getLsbD 59) (fpChar x) (fpFrac x) = x := by
  have hsign : (magnitude x).msb = false := by
    rw [BitVec.msb_eq_getLsbD_last, getLsbD_magnitude x (i := 60 - 1) (by decide), Bool.xor_self]
  have hlt : (magnitude x).toNat < 2 ^ 59 := BitVec.toNat_lt_of_msb_false hsign
  have hnat : fpChar x * 2 ^ 48 + fpFrac x = (magnitude x).toNat := by
    rw [fpChar, fpFrac, BitVec.extractLsb'_toNat, BitVec.extractLsb'_toNat, Nat.shiftRight_eq_div_pow, Nat.shiftRight_zero]
    omega
  rw [fpBits, hnat, BitVec.ofNat_toNat, BitVec.setWidth_eq, magnitude, BitVec.msb_eq_getLsbD_last]
  cases x.getLsbD 59 <;> simp

/-- The characteristic, un-complemented by the sign. -/
theorem fpChar_eq (x : DWord) :
    fpChar x = if x.getLsbD 59 then 2047 - (x.extractLsb' 48 11).toNat else (x.extractLsb' 48 11).toNat := by
  rw [fpChar, magnitude, BitVec.msb_eq_getLsbD_last]
  cases x.getLsbD 59
  · rfl
  · have hnot : (~~~x).extractLsb' 48 11 = ~~~(x.extractLsb' 48 11) := by
      apply BitVec.eq_of_getLsbD_eq
      intro i hi
      simp [hi, show 48 + i < 60 by omega]
    rw [if_pos rfl, if_pos rfl, hnot, BitVec.toNat_not]

theorem fpChar_lt (x : DWord) : fpChar x < 2 ^ 11 := BitVec.isLt _

/-- The half-word that 7707 stores. -/
theorem lowerHalf_fpChar (x : DWord) : lowerHalf (BitVec.ofNat 30 (fpChar x)) = BitVec.ofNat 15 (fpChar x) := by
  have hlt := fpChar_lt x
  rw [lowerHalf_eq_ofNat, BitVec.toNat_ofNat, Nat.mod_eq_of_lt (by omega)]

/-- The state that 7707 leaves. -/
def fpUnpacked (b : BitVec 3) (y : BitVec 15) (s : State) : State :=
  storeWord ((opAddr b y s).word 0) .lower (BitVec.ofNat 30 (fpChar (aq s))) (setAq (fpExtended (aq s)) (noteStorage b y s))

theorem exec_fpUnpack (h : canWrite (opAddr b y s) 0 .lower s = true) : exec (.fpUnpack b y) s = .next (fpUnpacked b y s) := by
  have hsame : SameAddressing (noteStorage b y s) (setAq (fpExtended (aq s)) (noteStorage b y s)) := ⟨rfl, rfl, rfl, rfl, rfl⟩
  have hwrite : canWrite (opAddr b y s) 0 .lower (setAq (fpExtended (aq s)) (noteStorage b y s)) = true := by
    rw [canWrite_congr hsame rfl rfl, canWrite_noteStorage h]
  show execFpUnpack b y s = _
  simp only [execFpUnpack, operandAddr_eq, if_true, aq_noteStorage]
  exact congrArg (fun r => Res.andThen r fun _ u => Host.Outcome.next u) (writeAt_ok _ true 0 .lower _ _ _ hwrite)

theorem aq_fpUnpacked (b : BitVec 3) (y : BitVec 15) (s : State) : aq (fpUnpacked b y s) = fpExtended (aq s) :=
  aq_setAq (fpExtended (aq s)) (noteStorage b y s)

/-- The word that 7707 leaves, and what it keeps. -/
theorem fpUnpacked_frame (b : BitVec 3) (y : BitVec 15) (s : State) :
    let d := (opAddr b y s).word 0
    wordAt (fpUnpacked b y s) d = upperHalf (wordAt s d) ++ BitVec.ofNat 15 (fpChar (aq s)) ∧ MemoryKeptBut [d] s (fpUnpacked b y s) ∧
      ParityStored d .lower s (fpUnpacked b y s) ∧ KeptButMemory s (fpUnpacked b y s) := by
  intro d
  have hnoted : KeptButMemory s (setAq (fpExtended (aq s)) (noteStorage b y s)) ∧
      ∀ a, wordAt (setAq (fpExtended (aq s)) (noteStorage b y s)) a = wordAt s a := noteStorage_keptButMemory b y s
  obtain ⟨hword, hother, hkept⟩ := storeWord_frame d .lower (BitVec.ofNat 30 (fpChar (aq s))) _ s false hnoted
  have hparity := storeWord_parityStored d .lower (BitVec.ofNat 30 (fpChar (aq s))) (setAq (fpExtended (aq s)) (noteStorage b y s)) s
    false (noteStorage_parity b y s)
  refine ⟨hword.trans ?_, hother, hparity, hkept⟩
  rw [mergePart, lowerHalf_fpChar]

/-! ## 7707 and then 7706 -/

/-- With no newly loaded IFR both instructions refer to the same word. -/
theorem opAddr_fpUnpacked (h : s.ctl.newIfr = .settled) : opAddr b y (fpUnpacked b y s) = opAddr b y s := by
  have hsame : SameAddressing (noteStorage b y s) (fpUnpacked b y s) := ⟨rfl, rfl, rfl, rfl, rfl⟩
  rw [opAddr_congr hsame, noteStorage_settled h, opAddr_capture]

/-- Reads are limited only where writes are (10_state.md R38). -/
theorem writeProtected_of_readProtected (h : readProtected s = true) : writeProtected s = true := by
  rw [readProtected, Bool.and_eq_true, beq_iff_eq] at h
  obtain ⟨hactive, hfield⟩ := h
  rw [writeProtected, hactive, hfield]
  rfl

/-- A word that 7707 could write can be read after it. -/
theorem canRead_fpUnpacked (h : s.ctl.newIfr = .settled) (hw : canWrite (opAddr b y s) 0 .lower s = true) :
    canRead (opAddr b y (fpUnpacked b y s)) 0 (fpUnpacked b y s) = true := by
  obtain ⟨-, -, hparity, -, -, -, -, -, -, -, -, -, hcfg⟩ := fpUnpacked_frame b y s
  obtain ⟨hread, -, -, hinside⟩ := modes_capture (opAddr b y s).base s
  rw [← noteStorage_settled h] at hread hinside
  have hread' : readProtected (fpUnpacked b y s) = readProtected s := hread
  have hinside' : ∀ a, inside (fpUnpacked b y s) a = inside s a := hinside
  simp only [canWrite, Bool.and_eq_true, Bool.or_eq_true, Bool.not_eq_true', Bool.and_eq_false_iff] at hw
  obtain ⟨⟨hfitted, hupper⟩, hlimits⟩ := hw
  have hupper' : halfBad s ((opAddr b y s).word 0) true = false := hupper
  rw [opAddr_fpUnpacked h]
  simp only [canRead, Bool.and_eq_true, Bool.or_eq_true, Bool.not_eq_true', Bool.and_eq_false_iff, hread', hinside']
  refine ⟨⟨?fitted, ?parity⟩, hlimits.imp_left fun hl => hl.imp_right fun hwrite => ?unlimited⟩
  case fitted => rwa [installed, hcfg]
  case parity =>
    rw [wordBad, hparity, hparity, hupper', decide_eq_true rfl]
    simp [covers]
  case unlimited => exact Bool.eq_false_iff.2 fun hr => Bool.eq_false_iff.1 hwrite (writeProtected_of_readProtected hr)

/-- The characteristic that 7706 takes from the word that 7707 has left. -/
theorem operandWord_fpUnpacked (h : s.ctl.newIfr = .settled) :
    ((operandWord b y 0 (fpUnpacked b y s)).extractLsb' 0 11).toNat = fpChar (aq s) := by
  obtain ⟨hword, -⟩ := fpUnpacked_frame b y s
  have hlt := fpChar_lt (aq s)
  have hhalf : lowerHalf (operandWord b y 0 (fpUnpacked b y s)) = BitVec.ofNat 15 (fpChar (aq s)) := by
    rw [operandWord, opAddr_fpUnpacked h, hword]
    exact extract_low _ _
  have hnat := congrArg BitVec.toNat hhalf
  rw [lowerHalf, BitVec.extractLsb'_toNat, BitVec.toNat_ofNat] at hnat
  rw [BitVec.extractLsb'_toNat]
  omega

/-- 7706 directly on what 7707 has left: the fields of the number are put together again. -/
theorem fpPack_fpUnpacked (h : s.ctl.newIfr = .settled) (hw : canWrite (opAddr b y s) 0 .lower s = true)
    (hx : aq s = 0 ∨ (aq s).getLsbD 47 ≠ (aq s).getLsbD 59) :
    Answers (exec (.fpPack b y) (fpUnpacked b y s)) fun u => u.a ++ u.q = aq s := by
  obtain ⟨u, hu, hzero, hpacked, -⟩ := fpPack_answers (canRead_fpUnpacked h hw)
  rw [aq_fpUnpacked, magnitude_fpExtended] at hzero hpacked
  rw [operandWord_fpUnpacked h, getLsbD_fpExtended _ (by decide), if_pos (by decide)] at hpacked
  refine ⟨u, hu, ?_⟩
  rcases hx with hx | hx
  · rw [hx] at hzero ⊢
    exact hzero rfl
  · have hchar := fpChar_lt (aq s)
    rw [hpacked 47 (fpFrac_ge_of_bit hx) (fpFrac_lt (aq s)) (Nat.le_add_left _ _) (by omega), Nat.add_sub_cancel,
      Nat.mul_div_cancel _ (Nat.two_pow_pos 47), fpBits_fields]

end

/-- Settles O22: 7706 by the place of the highest bit, 7707 by the state it leaves, and the fields of a number from which the two make it
again. -/
theorem fpPackUnpackComplete : Obligations.FpPackUnpackComplete := by
  unfold Obligations.FpPackUnpackComplete
  refine ⟨⟨fun b y s h => ?pack, fun b y s h => ?unpack⟩, fun b y s hsettled h => ?roundTrip⟩
  case pack =>
    have hanswers := fpPack_answers h
    rw [magnitude, BitVec.msb_eq_getLsbD_last] at hanswers
    exact hanswers
  case unpack =>
    obtain ⟨hword, hother, hparity, hkept⟩ := fpUnpacked_frame b y s
    rw [fpChar_eq] at hword
    refine ⟨_, exec_fpUnpack h, hword, hother, hparity, fun i hi => ?_, noteStorage_pc b y s, rfl, hkept⟩
    exact (congrArg (BitVec.getLsbD · i) (aq_fpUnpacked b y s)).trans (getLsbD_fpExtended _ hi)
  case roundTrip =>
    intro x hx
    exact ⟨_, exec_fpUnpack h, fpPack_fpUnpacked hsettled h (hx.imp_right And.right)⟩

end Sys2Proof.Machine
end

section
/-! What the decimal instructions share: the bits of the IFR above f1 after a note, and a decimal word's sign, zones and magnitude
(44_arith_decimal.md R320 to R324). -/

namespace Sys2Proof.Machine

open Sys2Proof

section

variable {s t : State} {b : BitVec 3} {y : BitVec 15}

/-! ## The IFR above f1 -/

theorem noteData_controlKept (b : BitVec 3) (y : BitVec 15) (s : State) : ControlKept s (noteData b y s) := by
  unfold noteData ControlKept
  rw [capture_ctl]
  split
  · simp
  · simp [withF1_high]

/-- Where the control registers are kept, so is every bit of the IFR above f1. -/
theorem ControlKept.getLsbD_ifr (h : ControlKept s t) {i : Nat} (hi : 17 ≤ i) : t.ctl.ifr.getLsbD i = s.ctl.ifr.getLsbD i := by
  obtain ⟨hhigh, -⟩ := h
  by_cases hw : i < 30
  · have hbit := congrArg (BitVec.getLsbD · (i - 17)) hhigh
    simp only [BitVec.getLsbD_extractLsb', Nat.add_sub_cancel' hi, show i - 17 < 13 by omega, decide_true, Bool.true_and] at hbit
    exact hbit
  · rw [BitVec.getLsbD_of_ge _ _ (Nat.not_lt.1 hw), BitVec.getLsbD_of_ge _ _ (Nat.not_lt.1 hw)]

/-! ## Decimal words -/

theorem aq_noteData : aq (noteData b y s) = aq s := aq_ofRegisters _ _ (capture_a _ s) (capture_q _ s)

/-- A packed magnitude of ten digits is read back. -/
theorem decMag_decPack_of_lt (x : DWord) (plus : Bool) {m : Nat} (h : m < 10 ^ 10) : decMag (decPack x plus m) = m := by
  rw [decMag_decPack, Nat.mod_eq_of_lt h]

/-- The words whose sign and zones are those of a decimal word. -/
theorem decJoin_keeps (x : DWord) (d : Nat → Nat) :
    (decJoin x (decPlus x) d).getLsbD 4 = x.getLsbD 4 ∧
    ∀ i < 10, (decJoin x (decPlus x) d).getLsbD (6 * i + 5) = x.getLsbD (6 * i + 5) ∧
      (decJoin x (decPlus x) d).getLsbD (6 * i + 4) = x.getLsbD (6 * i + 4) := by
  have hsign : (decJoin x (decPlus x) d).getLsbD 4 = x.getLsbD 4 := decJoin_sign x _ d
  refine ⟨hsign, fun i hi => ?_⟩
  obtain ⟨hfive, hfour⟩ := decJoin_zones x (decPlus x) d i hi
  by_cases h0 : i = 0
  · subst h0
    exact ⟨hfive, hsign⟩
  · exact ⟨hfive, hfour h0⟩

theorem aq_freeDecimal (keepSign : Bool) (t : State) : ∃ plus d, aq (freeDecimal keepSign t) = decJoin (aq t) plus d ∧
    (keepSign = true → plus = decPlus (aq t)) :=
  ⟨_, _, aq_setAq (decJoin (aq t) (if keepSign then decPlus (aq t) else _) _) t, fun h => if_pos h⟩

theorem freeDecimal_kept {keepSign : Bool} (h : Kept s t) : Kept s (freeDecimal keepSign t) := spend_kept (spend_kept (setAq_kept _ h))

end

end Sys2Proof.Machine
end

section
/-! Decimal to binary: 7733 and 7734 (44_arith_decimal.md R331, R332). -/

namespace Sys2Proof.Machine

open Sys2Proof

section

variable {s : State} {b : BitVec 3} {y : BitVec 15}

/-- Successive words that can be read are read in rising order, once the operand's address has been noted. -/
theorem readWords_noteStorage : ∀ (m n : Nat), (∀ i, n ≤ i → i < n + m → canRead (opAddr b y s) i s = true) →
    readWords (opAddr b y s) n m (noteStorage b y s) =
      .ok ((List.range' n m).map fun i => operandWord b y i s) (noteStorage b y s) := by
  intro m
  induction m with
  | zero => intro n _; rfl
  | succ m ih =>
    intro n h
    have hrest := ih (n + 1) fun i hl hu => h i (by omega) (by omega)
    rw [readWords, readAt_noteStorage (h n le_rfl (by omega)), Res.bind_ok, hrest, Res.bind_ok]
    rfl

/-- AQ times 10^5 plus the five digits, where the digits are digits, the words are clear and the result fits; else an open AQ. -/
theorem decimalConvert_answers (digit : Word → Nat) (clear : Word → Bool) (h : wordsReadable b y 5 s = true) :
    let d := fun n => digit (operandWord b y n s)
    let r := (aq s).toNat * 100000 + (d 0 * 10000 + d 1 * 1000 + d 2 * 100 + d 3 * 10 + d 4)
    Answers (decimalConvert digit clear b y s) fun t =>
      ((∀ n < 5, d n ≤ 9 ∧ clear (operandWord b y n s) = true) ∧ r ≤ 2 ^ 34 - 1 → (aq t).toNat = r) ∧
        t.pc = s.pc ∧ t.ctl = (noteStorage b y s).ctl ∧ Kept s t := by
  intro d r
  have hwords := readWords_noteStorage 5 0 fun i _ hi => List.all_eq_true.mp h i (List.mem_range.mpr (by omega))
  have hdigits : ((List.range' 0 5).map fun i => operandWord b y i s).foldl (fun acc w => acc * 10 + digit w) 0 =
      d 0 * 10000 + d 1 * 1000 + d 2 * 100 + d 3 * 10 + d 4 := by
    show ((((0 * 10 + d 0) * 10 + d 1) * 10 + d 2) * 10 + d 3) * 10 + d 4 = _
    omega
  have hformed : (((List.range' 0 5).map fun i => operandWord b y i s).all fun w => decide (digit w ≤ 9) && clear w) = true ↔
      ∀ n < 5, d n ≤ 9 ∧ clear (operandWord b y n s) = true := by
    simp only [List.all_map, List.all_eq_true, List.mem_range'_1, Function.comp_apply, Bool.and_eq_true, decide_eq_true_eq, Nat.zero_le,
      true_and, Nat.zero_add]
    rfl
  have hexec : decimalConvert digit clear b y s =
      if (∀ n < 5, d n ≤ 9 ∧ clear (operandWord b y n s) = true) ∧ r ≤ 2 ^ 34 - 1 then
        .next (setAq (BitVec.ofNat 60 r) (noteStorage b y s))
      else .next (freeAq (noteStorage b y s)) := by
    simp only [decimalConvert, operandAddr_eq, if_true, hwords, Res.andThen_ok, hdigits, aq_noteStorage, Bool.and_eq_true,
      decide_eq_true_eq, hformed]
    rfl
  by_cases hfits : (∀ n < 5, d n ≤ 9 ∧ clear (operandWord b y n s) = true) ∧ r ≤ 2 ^ 34 - 1
  · refine ⟨_, hexec.trans (if_pos hfits), fun _ => ?_, noteStorage_pc b y s, rfl, setAq_kept _ (noteStorage_kept b y s)⟩
    have haq : aq (setAq (BitVec.ofNat 60 r) (noteStorage b y s)) = BitVec.ofNat 60 r := aq_setAq _ _
    rw [haq, BitVec.toNat_ofNat]
    exact Nat.mod_eq_of_lt (lt_of_le_of_lt hfits.2 (by decide))
  · obtain ⟨t, ht, hrest⟩ := freeAq_noteStorage_answers (hexec.trans (if_neg hfits))
    exact ⟨t, ht, fun hf => absurd hf hfits, hrest⟩

end

/-- Settles O16: the two instructions are one conversion, with the digit and the bits that must be 0 in the lower or the upper half. -/
theorem decimalConvertCompletes : Obligations.DecimalConvertCompletes := by
  unfold Obligations.DecimalConvertCompletes
  refine ⟨fun b y s h => ?lower, fun b y s h => ?upper⟩
  case lower =>
    have hanswers := decimalConvert_answers (fun w => (w.extractLsb' 0 4).toNat) (fun w => w.extractLsb' 6 9 == 0) h
    simp only [beq_iff_eq] at hanswers
    exact hanswers
  case upper =>
    have hanswers := decimalConvert_answers (fun w => (w.extractLsb' 15 4).toNat) (fun w => w.extractLsb' 21 9 == 0) h
    simp only [beq_iff_eq] at hanswers
    exact hanswers

end Sys2Proof.Machine
end

section
/-! 7714, the complement of AQ, and 7710, the tests of AQ and the designators (44_arith_decimal.md R327, R330). -/

namespace Sys2Proof.Machine

open Sys2Proof

section

variable {s : State} {b : BitVec 3} {y : BitVec 15}

/-! ## 7714 -/

/-- The nines complement for an odd `ybar`, the tens complement for an even one (R323). -/
def decComplement (odd : Bool) (m : Nat) : Nat := if odd then nines m else tens m

theorem decComplement_eq (odd : Bool) (m : Nat) :
    decComplement odd m = if odd then 10 ^ 10 - 1 - m else (10 ^ 10 - m) % 10 ^ 10 := rfl

theorem decComplement_lt (odd : Bool) (m : Nat) : decComplement odd m < 10 ^ 10 := by
  cases odd
  · exact Nat.mod_lt _ (by decide)
  · exact lt_of_le_of_lt (Nat.sub_le _ _) (by decide)

/-- 7714 packs the complement with AQ's sign and zones, or takes free digits where one is above 9. -/
theorem exec_decimalComplement : exec (.decimalComplement b y) s =
    if decValid (aq s) = true then
      .next (setAq (decPack (aq s) (decPlus (aq s)) (decComplement ((effective b y s).getLsbD 0) (decMag (aq s)))) (noteData b y s))
    else .next (freeDecimal true (noteData b y s)) := by
  show execDecimalComplement b y s = _
  simp only [execDecimalComplement, dataOperand, Res.andThen_ok, if_true]
  rw [← noteData, aq_noteData]
  rfl

/-- Whatever the digits, 7714 leaves a word of AQ's sign and zones in AQ, and the frame of an instruction that uses `ybar` as data. -/
theorem decimalComplement_answers : Answers (exec (.decimalComplement b y) s) fun t =>
    (decValid (aq s) = true →
      aq t = decPack (aq s) (decPlus (aq s)) (decComplement ((effective b y s).getLsbD 0) (decMag (aq s)))) ∧
    (∃ d, aq t = decJoin (aq s) (decPlus (aq s)) d) ∧ t.pc = s.pc ∧ t.ctl = (noteData b y s).ctl ∧ Kept s t := by
  have hkept : Kept s (noteData b y s) := capture_kept _ s
  have hpc : (noteData b y s).pc = s.pc := capture_pc _ s
  rw [exec_decimalComplement]
  by_cases hvalid : decValid (aq s) = true
  · exact ⟨_, if_pos hvalid, fun _ => aq_setAq _ _, ⟨_, aq_setAq _ _⟩, hpc, rfl, setAq_kept _ hkept⟩
  · obtain ⟨plus, d, haq, hplus⟩ := aq_freeDecimal true (noteData b y s)
    rw [hplus rfl, aq_noteData] at haq
    exact ⟨_, if_neg hvalid, fun h => absurd h hvalid, ⟨d, haq⟩, hpc, rfl, freeDecimal_kept hkept⟩

/-! ## 7710 -/

/-- The designator that 7710 tests, by D27's parameter, is not one that the note of `ybar` writes. -/
theorem decimalOverflow_noteData : decimalOverflow (noteData b y s) =
    match s.cfg.decOvf with
    | .f4OrF5 => s.ctl.ifr.getLsbD 23 || s.ctl.ifr.getLsbD 24
    | .f5Only => s.ctl.ifr.getLsbD 24
    | .f4Only => s.ctl.ifr.getLsbD 23 := by
  have hcfg : (noteData b y s).cfg = s.cfg := capture_cfg _ s
  have hkept := noteData_controlKept b y s
  simp only [decimalOverflow, carryFlag, borrowFlag, hcfg, hkept.getLsbD_ifr (show 17 ≤ 23 by decide),
    hkept.getLsbD_ifr (show 17 ≤ 24 by decide)]
  cases s.cfg.decOvf
  · exact Bool.or_comm _ _
  · rfl
  · rfl

/-! Each test of Table 4-4 (R330). -/

theorem decimalTestHolds_zero (t : State) : decimalTestHolds 0 t = decimalOverflow t := rfl

theorem decimalTestHolds_one (t : State) : decimalTestHolds 1 t = !decimalOverflow t := rfl

theorem decimalTestHolds_two (t : State) : decimalTestHolds 2 t = decPlus (aq t) := rfl

theorem decimalTestHolds_three (t : State) : decimalTestHolds 3 t = decide (decMag (aq t) = 0) := by
  unfold decimalTestHolds
  simp only
  rw [beq_eq_decide]

theorem decimalTestHolds_four (t : State) : decimalTestHolds 4 t = !decPlus (aq t) := rfl

theorem decimalTestHolds_ten (t : State) : decimalTestHolds 10 t = decide (decMag (aq t) ≠ 0) := by
  unfold decimalTestHolds
  simp only
  rw [bne, beq_eq_decide, ← decide_not]

/-- A digit is not zero when its four bits are not. -/
theorem digitAt_ne_zero (x : DWord) (i : Nat) : (digitAt x i != 0) = decide (x.extractLsb' (6 * i) 4 ≠ 0) := by
  rw [Bool.eq_iff_iff, bne_iff_ne, decide_eq_true_iff, digitAt, ne_eq, ne_eq, BitVec.toNat_eq]
  rfl

/-- Tests 5 to 9 are on the digit of that place. -/
theorem decimalTestHolds_digit (t : State) {i : Nat} (hl : 5 ≤ i) (hu : i < 10) :
    decimalTestHolds i t = decide ((aq t).extractLsb' (6 * i) 4 ≠ 0) := by
  rw [← digitAt_ne_zero]
  unfold decimalTestHolds
  split
  case h_7 => rfl
  all_goals omega

/-- The eleven tests, each on its selecting bit. -/
theorem any_decimalTestHolds (y : BitVec 15) (t : State) :
    ((List.range 11).any fun i => y.getLsbD i && decimalTestHolds i t) =
      ((y.getLsbD 0 && decimalOverflow t) || (y.getLsbD 1 && !decimalOverflow t) || (y.getLsbD 2 && decPlus (aq t)) ||
        (y.getLsbD 3 && decide (decMag (aq t) = 0)) || (y.getLsbD 4 && !decPlus (aq t)) ||
        (y.getLsbD 5 && decide ((aq t).extractLsb' (6 * 5) 4 ≠ 0)) || (y.getLsbD 6 && decide ((aq t).extractLsb' (6 * 6) 4 ≠ 0)) ||
        (y.getLsbD 7 && decide ((aq t).extractLsb' (6 * 7) 4 ≠ 0)) || (y.getLsbD 8 && decide ((aq t).extractLsb' (6 * 8) 4 ≠ 0)) ||
        (y.getLsbD 9 && decide ((aq t).extractLsb' (6 * 9) 4 ≠ 0)) || (y.getLsbD 10 && decide (decMag (aq t) ≠ 0))) := by
  have hdigit := fun i => decimalTestHolds_digit t (i := i)
  simp only [List.range_succ, List.range_zero, List.nil_append, List.any_append, List.any_cons, List.any_nil, Bool.or_false,
    decimalTestHolds_zero, decimalTestHolds_one, decimalTestHolds_two, decimalTestHolds_three, decimalTestHolds_four, decimalTestHolds_ten,
    hdigit 5 (by decide) (by decide), hdigit 6 (by decide) (by decide), hdigit 7 (by decide) (by decide),
    hdigit 8 (by decide) (by decide), hdigit 9 (by decide) (by decide)]

/-- 7710 changes P alone, by the tests on AQ and the IFR. -/
theorem decimalTest_answers : Answers (exec (.decimalTest b y) s) fun t =>
    t.pc = pcAfter s ((List.range 11).any fun i => y.getLsbD i && decimalTestHolds i (noteData b y s)) ∧
      t.a = s.a ∧ t.q = s.q ∧ t.ctl = (noteData b y s).ctl ∧ Kept s t :=
  ⟨_, rfl, pc_skipIf _ (capture_pc _ s), (skipIf_a _ _).trans (capture_a _ s), (skipIf_q _ _).trans (capture_q _ s), skipIf_ctl _ _,
    skipIf_kept _ (capture_kept _ s)⟩

end

/-- Settles O19: 7714 packs a complement of ten digits with AQ's own sign and zones; 7710 skips by the tests, which its note of `ybar`
does not change. -/
theorem decimalComplementAndTestComplete : Obligations.DecimalComplementAndTestComplete := by
  unfold Obligations.DecimalComplementAndTestComplete
  refine ⟨fun b y s => ?complement, fun b y s => ?test⟩
  case complement =>
    obtain ⟨t, ht, hpacked, ⟨d, haq⟩, hrest⟩ := decimalComplement_answers (b := b) (y := y) (s := s)
    obtain ⟨hsign, hzones⟩ := decJoin_keeps (aq s) d
    rw [← haq] at hsign hzones
    refine ⟨t, ht, fun hvalid => ?_, hsign, hzones, hrest⟩
    have hz : t.a ++ t.q = decPack (aq s) (decPlus (aq s)) (decComplement ((effective b y s).getLsbD 0) (decMag (aq s))) :=
      hpacked hvalid
    rw [hz, decMag_decPack_of_lt _ _ (decComplement_lt _ _), decComplement_eq]
    exact ⟨decValid_decPack _ _ _, rfl⟩
  case test =>
    have hanswers := decimalTest_answers (b := b) (y := y) (s := s)
    rw [any_decimalTestHolds, decimalOverflow_noteData, aq_noteData] at hanswers
    simp only [Nat.reduceMul] at hanswers
    exact hanswers

end Sys2Proof.Machine
end

section
/-! The common procedure `dadd` as arithmetic of signed magnitudes (44_arith_decimal.md R322, R333): its magnitude has ten digits, and a sum
that fits is the algebraic one. -/

namespace Sys2Proof.Machine

open Sys2Proof

/-- The number of a sign and a magnitude. -/
def decSigned (plus : Bool) (m : Nat) : Int := if plus then (m : Int) else -(m : Int)

theorem decSigned_not (plus : Bool) (m : Nat) : decSigned (!plus) m = -decSigned plus m := by
  cases plus <;> simp [decSigned]

/-- Like signs add the magnitudes. -/
theorem decSigned_add_like (p : Bool) (a c : Nat) : decSigned p a + decSigned p c = decSigned p (a + c) := by
  cases p <;> simp only [decSigned, if_true, Bool.false_eq_true, if_false] <;> omega

/-- Unlike signs subtract the smaller magnitude, with the sign of the greater. -/
theorem decSigned_add_unlike {p r : Bool} (h : r ≠ p) {a c : Nat} (hle : a ≤ c) :
    decSigned r a + decSigned p c = decSigned p (c - a) := by
  rw [Bool.eq_not_of_ne h, decSigned_not]
  cases p <;> simp only [decSigned, if_true, Bool.false_eq_true, if_false] <;> omega

theorem natAbs_decSigned (p : Bool) (m : Nat) : (decSigned p m).natAbs = m := by
  cases p <;> simp [decSigned]

/-- A sum by its parts. -/
theorem DecSum.eq_mk {r : DecSum} {carry plus : Bool} {n : Nat} (h : r = ⟨carry, plus, n⟩) :
    r.carry = carry ∧ r.plus = plus ∧ r.mag = n := by
  subst h
  exact ⟨rfl, rfl, rfl⟩

section

variable {x m : DWord} {p cin multi : Bool} {c : Nat}

/-- Unlike signs with a carry out of the intermediate sum (R333, D26). -/
theorem decSum_unlike_carry (hcin : cin.toNat = c) (hunlike : decPlus x ≠ p) (ha : decMag x < 10 ^ 10)
    (hle : 10 ^ 10 ≤ (if multi then 10 ^ 10 - 1 else 10 ^ 10) - decMag x + decMag m + c) :
    decSum x m p cin multi = ⟨true, p, (if multi then 10 ^ 10 - 1 else 10 ^ 10) - decMag x + decMag m + c - 10 ^ 10⟩ := by
  subst hcin
  exact (decSum_unlike x m p cin multi hunlike ha).trans (if_pos hle)

/-- Unlike signs without one: the intermediate sum is complemented. -/
theorem decSum_unlike_noCarry (hcin : cin.toNat = c) (hunlike : decPlus x ≠ p) (ha : decMag x < 10 ^ 10)
    (hgt : (if multi then 10 ^ 10 - 1 else 10 ^ 10) - decMag x + decMag m + c < 10 ^ 10) :
    decSum x m p cin multi = ⟨false, decPlus x, (if multi then 10 ^ 10 - 1 else 10 ^ 10) -
      ((if multi then 10 ^ 10 - 1 else 10 ^ 10) - decMag x + decMag m + c)⟩ := by
  subst hcin
  exact (decSum_unlike x m p cin multi hunlike ha).trans (if_neg (Nat.not_le.2 hgt))

/-- What `dadd` forms from ten digits on either side has ten digits; a carry in belongs to the nines complement. -/
theorem decSum_mag_lt (hx : decValid x = true) (hm : decValid m = true) (hcin : multi = false → cin = false) :
    (decSum x m p cin multi).mag < 10 ^ 10 := by
  have ha := decMag_lt x hx
  have hb := decMag_lt m hm
  have hc : cin.toNat ≤ if multi then 1 else 0 := by
    cases multi
    · rw [hcin rfl]
      decide
    · exact Bool.toNat_le cin
  by_cases hlike : decPlus x = p
  · obtain ⟨-, -, hmag⟩ := DecSum.eq_mk (decSum_like x m p cin multi hlike)
    rw [hmag]
    exact Nat.mod_lt _ (by decide)
  · rcases Nat.lt_or_ge ((if multi then 10 ^ 10 - 1 else 10 ^ 10) - decMag x + decMag m + cin.toNat) (10 ^ 10) with hgt | hle
    · obtain ⟨-, -, hmag⟩ := DecSum.eq_mk (decSum_unlike_noCarry rfl hlike ha hgt)
      rw [hmag]
      cases multi <;> simp only [Bool.false_eq_true, if_true, if_false] at hc hgt ⊢ <;> omega
    · obtain ⟨-, -, hmag⟩ := DecSum.eq_mk (decSum_unlike_carry rfl hlike ha hle)
      rw [hmag]
      cases multi <;> simp only [Bool.false_eq_true, if_true, if_false] at hc hle ⊢ <;> omega

/-- Without carry in and by the tens complement, a sum below 10^10 is the algebraic one (R325, R326). -/
theorem decSum_algebraic (hx : decValid x = true) (hm : decValid m = true)
    (hfits : (decSigned (decPlus x) (decMag x) + decSigned p (decMag m)).natAbs < 10 ^ 10) :
    decSigned (decSum x m p false false).plus (decSum x m p false false).mag =
      decSigned (decPlus x) (decMag x) + decSigned p (decMag m) := by
  have ha := decMag_lt x hx
  have hb := decMag_lt m hm
  have hbase : (if false = true then 10 ^ 10 - 1 else 10 ^ 10) = 10 ^ 10 := rfl
  by_cases hlike : decPlus x = p
  · obtain ⟨-, hplus, hmag⟩ := DecSum.eq_mk (decSum_like x m p false false hlike)
    rw [hlike, decSigned_add_like, natAbs_decSigned] at hfits
    rw [hplus, hmag, hlike, decSigned_add_like, Bool.toNat_false, Nat.add_zero, Nat.mod_eq_of_lt hfits]
  · rcases Nat.lt_or_ge ((if false = true then 10 ^ 10 - 1 else 10 ^ 10) - decMag x + decMag m + false.toNat) (10 ^ 10) with hgt | hle
    · obtain ⟨-, hplus, hmag⟩ := DecSum.eq_mk (decSum_unlike_noCarry rfl hlike ha hgt)
      rw [hbase, Bool.toNat_false] at hmag hgt
      rw [hplus, add_comm, decSigned_add_unlike (Ne.symm hlike) (by omega), hmag]
      exact congrArg (decSigned _) (by omega)
    · obtain ⟨-, hplus, hmag⟩ := DecSum.eq_mk (decSum_unlike_carry rfl hlike ha hle)
      rw [hbase, Bool.toNat_false] at hmag hle
      rw [hplus, decSigned_add_unlike hlike (by omega), hmag]
      exact congrArg (decSigned _) (by omega)

end

end Sys2Proof.Machine
end

section
/-! The decimal additions 7711, 7712, 7715 and 7716 (44_arith_decimal.md R324 to R329): `dadd` into AQ with AQ's zones, its carry into the
end-off designator. -/

namespace Sys2Proof.Machine

open Sys2Proof

/-! ## The end-off designator (R324) -/

/-- Bit 23 of the IFR, f4, for a subtraction, bit 24, f5, for an addition. -/
def endOffBit (subtract : Bool) : Nat := if subtract then 23 else 24

def withEndOff (subtract : Bool) (w : Word) (v : Bool) : Word := if subtract then withF4 w v else withF5 w v

theorem withEndOff_getLsbD (subtract : Bool) (w : Word) (v : Bool) {i : Nat} (hi : i < 30) :
    (withEndOff subtract w v).getLsbD i = if i = endOffBit subtract then v else w.getLsbD i := by
  cases subtract
  · exact withF5_getLsbD w v i hi
  · exact withF4_getLsbD w v i hi

theorem setIfr_withEndOff (subtract v : Bool) (t : State) :
    (if subtract then setBorrow v t else setCarry v t) = setIfr (withEndOff subtract t.ctl.ifr v) t := by
  cases subtract <;> rfl

theorem endOffBit_bounds (subtract : Bool) : 17 ≤ endOffBit subtract ∧ endOffBit subtract < 30 := by cases subtract <;> decide

/-! ## What an addition leaves -/

/-- The sign the operand is taken with: reversed for a subtraction (R326, R329). -/
def takenPlus (subtract : Bool) (m : DWord) : Bool := if subtract then !decPlus m else decPlus m

theorem decSigned_takenPlus (subtract : Bool) (m : DWord) (n : Nat) :
    decSigned (takenPlus subtract m) n = (if subtract then -1 else 1) * decSigned (decPlus m) n := by
  cases subtract
  · exact (one_mul _).symm
  · exact (decSigned_not _ _).trans (neg_one_mul _).symm

section

variable {b : BitVec 3} {y : BitVec 15} {s : State}

/-- `dadd` on AQ and the two-word operand, with the old designator for 7715 and 7716. -/
def decimalSum (subtract multi : Bool) (b : BitVec 3) (y : BitVec 15) (s : State) : DecSum :=
  decSum (aq s) (doubleValue b y s) (takenPlus subtract (doubleValue b y s)) (multi && s.ctl.ifr.getLsbD (endOffBit subtract)) multi

theorem decimalAddition_eq (subtract multi : Bool) (h : doubleReadable b y s = true) :
    decimalAddition subtract multi b y s =
      (let n := noteStorage b y s
       let r := decimalSum subtract multi b y s
       if decValid (aq s) = true ∧ decValid (doubleValue b y s) = true then
         .next (setAq (decPack (aq s) r.plus r.mag) (setIfr (withEndOff subtract n.ctl.ifr r.carry) n))
       else .next (freeDecimal false (spend (setIfr (withEndOff subtract n.ctl.ifr (freeChoice n)) n)))) := by
  obtain ⟨habove, -⟩ := endOffBit_bounds subtract
  have hflag : (if subtract then borrowFlag (noteStorage b y s) else carryFlag (noteStorage b y s)) =
      s.ctl.ifr.getLsbD (endOffBit subtract) := by
    rw [← (noteStorage_controlKept b y s).getLsbD_ifr habove]
    cases subtract <;> rfl
  simp only [decimalAddition, readDouble_ok b y s h, Res.andThen_ok, setIfr_withEndOff, hflag, aq_noteStorage, Bool.and_eq_true]
  rfl

/-- An addition leaves a word with AQ's zones in AQ and writes one bit of the control registers; on digits both are those of `dadd`. -/
theorem decimalAddition_answers (subtract multi : Bool) (h : doubleReadable b y s = true) :
    let n := noteStorage b y s
    let r := decimalSum subtract multi b y s
    Answers (decimalAddition subtract multi b y s) fun t =>
      (decValid (aq s) = true → decValid (doubleValue b y s) = true →
        decValid (aq t) = true ∧ decMag (aq t) = r.mag ∧ decPlus (aq t) = r.plus ∧
          t.ctl.ifr.getLsbD (endOffBit subtract) = r.carry) ∧
      (∃ plus d, aq t = decJoin (aq s) plus d) ∧
      t.ctl = { n.ctl with ifr := t.ctl.ifr } ∧
      (∀ i < 30, i ≠ endOffBit subtract → t.ctl.ifr.getLsbD i = n.ctl.ifr.getLsbD i) ∧ t.pc = s.pc ∧ Kept s t := by
  intro n r
  have hpc : n.pc = s.pc := noteStorage_pc b y s
  have hkept : ∀ w, Kept s (setIfr w n) := fun w => setCtl_kept _ (noteStorage_kept b y s)
  have hother : ∀ v, ∀ i < 30, i ≠ endOffBit subtract → (withEndOff subtract n.ctl.ifr v).getLsbD i = n.ctl.ifr.getLsbD i :=
    fun v i hi hne => (withEndOff_getLsbD subtract _ v hi).trans (if_neg hne)
  obtain ⟨-, hbit⟩ := endOffBit_bounds subtract
  have hwritten : ∀ v, (withEndOff subtract n.ctl.ifr v).getLsbD (endOffBit subtract) = v :=
    fun v => (withEndOff_getLsbD subtract _ v hbit).trans (if_pos rfl)
  have hexec := decimalAddition_eq subtract multi h
  by_cases hvalid : decValid (aq s) = true ∧ decValid (doubleValue b y s) = true
  · have haq : aq (setAq (decPack (aq s) r.plus r.mag) (setIfr (withEndOff subtract n.ctl.ifr r.carry) n)) =
        decPack (aq s) r.plus r.mag := aq_setAq _ _
    refine ⟨_, hexec.trans (if_pos hvalid), fun hx hm => ?_, ⟨_, _, haq⟩, rfl, hother _, hpc, setAq_kept _ (hkept _)⟩
    have hdigits : r.mag < 10 ^ 10 := decSum_mag_lt hx hm fun hmulti => by rw [hmulti, Bool.false_and]
    rw [haq, decMag_decPack_of_lt _ _ hdigits]
    exact ⟨decValid_decPack _ _ _, rfl, decJoin_sign _ _ _, hwritten r.carry⟩
  · obtain ⟨plus, d, haq, -⟩ := aq_freeDecimal false (spend (setIfr (withEndOff subtract n.ctl.ifr (freeChoice n)) n))
    exact ⟨_, hexec.trans (if_neg hvalid), fun hx hm => absurd ⟨hx, hm⟩ hvalid,
      ⟨plus, d, haq.trans (congrArg (decJoin · plus d) aq_noteStorage)⟩, rfl, hother _, hpc, freeDecimal_kept (spend_kept (hkept _))⟩

end

/-- Settles O17: the four instructions are one addition; on digits `dadd` gives its carry, sign and magnitude, by the signs and by the carry
of the intermediate sum. -/
theorem decimalAdditionsComplete : Obligations.DecimalAdditionsComplete := by
  unfold Obligations.DecimalAdditionsComplete
  intro value form
  have hform : ∀ i subtract multi, (∀ b y s, exec (i b y) s = decimalAddition subtract multi b y s) → form i subtract multi := by
    intro i subtract multi hi b y s h x m n flag c plusM base like unlike
    obtain ⟨t, ht, hsum, ⟨plus, d, haq⟩, hframe⟩ := decimalAddition_answers subtract multi h
    have hzones := decJoin_zones (aq s) plus d
    rw [← haq] at hzones
    refine ⟨t, (hi b y s).trans ht, fun hx hm => ?onDigits, hzones, hframe⟩
    have ha : decMag x < 10 ^ 10 := decMag_lt x hx
    have hcin : (multi && s.ctl.ifr.getLsbD (endOffBit subtract)).toNat = c := by cases multi <;> rfl
    obtain ⟨hvalid, hmag, hsign, hcarry⟩ := hsum hx hm
    refine ⟨hvalid, fun hlike => ?like, fun hunlike hle => ?carry, fun hunlike hgt => ?noCarry, fun hmulti hfits => ?algebraic⟩
    case like =>
      obtain ⟨hc, hp, hr⟩ := DecSum.eq_mk (decSum_like x m plusM (multi && s.ctl.ifr.getLsbD (endOffBit subtract)) multi hlike)
      rw [hcin] at hc hr
      exact ⟨hmag.trans hr, hsign.trans hp, hcarry.trans hc⟩
    case carry =>
      obtain ⟨hc, hp, hr⟩ := DecSum.eq_mk (decSum_unlike_carry hcin hunlike ha hle)
      exact ⟨hmag.trans hr, hsign.trans hp, hcarry.trans hc⟩
    case noCarry =>
      obtain ⟨hc, hp, hr⟩ := DecSum.eq_mk (decSum_unlike_noCarry hcin hunlike ha hgt)
      exact ⟨hmag.trans hr, hsign.trans hp, hcarry.trans hc⟩
    case algebraic =>
      have hvalue : ∀ z, value z = decSigned (decPlus z) (decMag z) := fun _ => rfl
      have htaken : (if subtract = true then -1 else 1) * value m = decSigned plusM (decMag m) := (decSigned_takenPlus subtract m _).symm
      have haqt : value (aq t) = decSigned (decimalSum subtract multi b y s).plus (decimalSum subtract multi b y s).mag := by
        rw [hvalue, hsign, hmag]
      subst hmulti
      rw [htaken, hvalue x] at hfits ⊢
      exact haqt.trans (decSum_algebraic hx hm hfits)
  exact ⟨hform _ false false fun _ _ _ => rfl, hform _ true false fun _ _ _ => rfl, hform _ false true fun _ _ _ => rfl,
    hform _ true true fun _ _ _ => rfl⟩

end Sys2Proof.Machine
end

section
/-! The read class of the logical instructions (45_logical.md R351 to R353, R358 to R361): a result in A of A, Q and the operand, and the
parity column of 40 (R366). -/

namespace Sys2Proof.Machine

open Sys2Proof

/-- A running count of ones adds the ones of the bits tested to the start. -/
theorem foldl_countOnes (p : Nat → Bool) (l : List Nat) (n : Nat) :
    l.foldl (fun n i => n + (p i).toNat) n = n + (l.filter p).length := by
  induction l generalizing n with
  | nil => rfl
  | cons i l ih =>
    rw [List.foldl_cons, ih]
    cases hp : p i <;> simp [hp, Nat.add_assoc, Nat.add_comm 1]

theorem onesIn_eq (w : Word) : onesIn w = ((List.range 30).filter fun i => w.getLsbD i).length := by
  rw [onesIn, foldl_countOnes, Nat.zero_add]

/-- The 40/44 column, bit by bit (45_logical.md R366). -/
theorem skipLp_eq (j : BitVec 3) (t : State) : skipLp j t =
    (let ones := fun (w : Word) => ((List.range 30).filter fun i => w.getLsbD i).length
     (j == 1#3) || (j == 2#3 && decide (ones t.a % 2 = 0)) || (j == 3#3 && decide (ones t.a % 2 = 1)) || (j == 4#3 && t.a == 0) ||
      (j == 5#3 && t.a != 0) || (j == 6#3 && !t.a.getLsbD 29) || (j == 7#3 && t.a.getLsbD 29)) := by
  simp only [← onesIn_eq]
  rcases designator_cases j with rfl | rfl | rfl | rfl | rfl | rfl | rfl | rfl <;>
    simp [skipLp, BitVec.msb_eq_getLsbD_last, Bool.beq_eq_decide_eq]

section

variable {i : BitVec 3 → BitVec 3 → BitVec 3 → BitVec 15 → Instr} {useK : BitVec 3 → Bool} {f : State → Word → Word}

/-- An instruction that is `selective` of a value of A and Q, for the k that it allows, completes: the k that it refuses are outside. -/
theorem completesSelective (hf : ∀ v, OfRegisters fun t => f t v)
    (hi : ∀ j k b y s, useK k = true → exec (i j k b y) s = selective f j k b y s) :
    CompletesRead i useK f (fun s _ => s.q) fun j _ t => skipNormal j t := by
  intro j k b y s huse hr v
  have hexec : exec (i j k b y) s = endNormal j ((operandNote k b y s).setA (f (operandNote k b y s) v)) := by
    rw [hi j k b y s huse, selective, readOperand_ok k b y s hr, Res.andThen_ok]
  have hvalue : f (operandNote k b y s) v = f s v := hf v s _ (operandNote_a k b y s) (operandNote_q k b y s)
  refine ⟨_, hexec, ?_, by simp, (skipNormal_ofRegisters j).pc_skipIf (by simp), by simp,
    skipIf_kept _ (setA_kept _ (operandNote_kept k b y s))⟩
  simpa using hvalue

end

/-- Settles O2: 40 has the parity column; the others are `selective` of their results, those that refuse k = 7 for the other k. -/
theorem logicalReadClassCompletes : Obligations.LogicalReadClassCompletes := by
  unfold Obligations.LogicalReadClassCompletes
  simp only [← skipLp_eq]
  refine ⟨?enterLp, ?addLp, ?subtractLp, ?set, ?complement, ?clear, ?substitute⟩
  case enterLp => exact completesRead skipLp_ofRegisters (fun v => shiftsRegisters_setA fun _ q => v &&& q) fun _ _ _ _ _ => rfl
  case addLp | subtractLp | complement => exact completesSelective (fun _ _ _ ha hq => by simp only [ha, hq]) fun _ _ _ _ _ _ => rfl
  case set | clear | substitute => exact completesSelective (fun _ _ _ ha hq => by simp only [ha, hq]) fun _ _ _ _ _ hk => if_pos hk

end Sys2Proof.Machine
end

section
/-! The comparisons (46_comparison.md R381 to R389): each notes its operand's address and skips, so what it leaves is proved once for all of
them, and what is left of an instruction is when it skips. -/

namespace Sys2Proof.Machine

open Sys2Proof

/-! ## The columns of 04 and 43 -/

/-- The 04 column, on the two-complement readings of the patterns (R381, R382). -/
theorem skipCompare_eq (j : BitVec 3) (v : Word) (t : State) : skipCompare j v t =
    (let ky := v.toInt
     let ka := t.a.toInt
     let kq := t.q.toInt
     (j == 1#3) || (j == 2#3 && decide (ky ≤ kq)) || (j == 3#3 && decide (kq < ky)) || (j == 4#3 && decide (ka < ky ∧ ky ≤ kq)) ||
      (j == 5#3 && decide (kq < ky ∨ ky ≤ ka)) || (j == 6#3 && decide (ky ≤ ka)) || (j == 7#3 && decide (ka < ky))) := by
  rcases designator_cases j with rfl | rfl | rfl | rfl | rfl | rfl | rfl | rfl <;>
    simp [skipCompare, BitVec.slt_eq_decide, BitVec.sle_eq_decide]

/-- The 43 column, bit by bit (R383). -/
theorem skipMasked_eq (j : BitVec 3) (d : Word) (t : State) : skipMasked j d t =
    ((j == 1#3) || (j == 2#3 && !t.q.getLsbD 29) || (j == 3#3 && t.q.getLsbD 29) || (j == 4#3 && d == 0) || (j == 5#3 && d != 0) ||
      (j == 6#3 && !d.getLsbD 29) || (j == 7#3 && d.getLsbD 29)) := by
  rcases designator_cases j with rfl | rfl | rfl | rfl | rfl | rfl | rfl | rfl <;> simp [skipMasked, BitVec.msb_eq_getLsbD_last]

theorem skipCompare_ofRegisters (j : BitVec 3) (v : Word) : OfRegisters (skipCompare j v) := by
  intro s t ha hq
  unfold skipCompare
  rw [ha, hq]

theorem skipMasked_ofRegisters (j : BitVec 3) (v : Word) : OfRegisters fun t => skipMasked j (onesSub t.a (v &&& t.q)) t := by
  intro s t ha hq
  simp only [skipMasked, ha, hq]

section

variable {s : State} {b : BitVec 3} {y : BitVec 15} {r : Result}

/-- A read-class instruction that only skips, by a column on the operand, A and Q, completes. -/
theorem completesCompare {i : BitVec 3 → BitVec 3 → BitVec 3 → BitVec 15 → Instr} {useK : BitVec 3 → Bool}
    {column : BitVec 3 → Word → State → Bool} (hcolumn : ∀ j v, OfRegisters (column j v))
    (hi : ∀ j k b y s, exec (i j k b y) s = (readOperand true k b y s).andThen fun v t => .next (skipIf (column j v t) t)) :
    CompletesRead i useK (fun s _ => s.a) (fun s _ => s.q) column := by
  intro j k b y s _ hr v
  have hexec : exec (i j k b y) s = .next (skipIf (column j v (operandNote k b y s)) (operandNote k b y s)) := by
    rw [hi, readOperand_ok k b y s hr, Res.andThen_ok]
  exact ⟨_, hexec, (skipIf_a _ _).trans (operandNote_a k b y s), (skipIf_q _ _).trans (operandNote_q k b y s),
    (hcolumn j v).pc_skipIf (operandNote_pc k b y s), skipIf_ctl _ _, skipIf_kept _ (operandNote_kept k b y s)⟩

/-! ## 77 words that only skip -/

/-- What a comparison on a storage operand leaves, however it skips. -/
def ComparesStorage (b : BitVec 3) (y : BitVec 15) (s t : State) : Prop :=
  t.a = s.a ∧ t.q = s.q ∧ t.ctl = (noteStorage b y s).ctl ∧ Kept s t

theorem comparesStorage_skipIf (c : Bool) : ComparesStorage b y s (skipIf c (noteStorage b y s)) :=
  ⟨(skipIf_a _ _).trans (noteStorage_a b y s), (skipIf_q _ _).trans (noteStorage_q b y s), skipIf_ctl _ _,
    skipIf_kept c (noteStorage_kept b y s)⟩

theorem ComparesStorage.spend {t : State} (h : ComparesStorage b y s t) : ComparesStorage b y s (spend t) := by
  obtain ⟨ha, hq, hctl, hkept⟩ := h
  exact ⟨ha, hq, hctl, spend_kept hkept⟩

/-- An instruction that only skips, once its operand's address has been noted. -/
theorem skipIf_noteStorage_answers {c : Bool} (h : r = .next (skipIf c (noteStorage b y s))) :
    Answers r fun t => t.pc = pcAfter s c ∧ ComparesStorage b y s t :=
  ⟨_, h, pc_skipIf c (noteStorage_pc b y s), comparesStorage_skipIf c⟩

/-- A 77 word that skips by a test of AQ and its two-word operand completes. -/
theorem completesDoubleCompare {i : BitVec 3 → BitVec 15 → Instr} {test : DWord → DWord → Bool}
    (hi : ∀ b y s, exec (i b y) s = (readDouble b y s).andThen fun m t => .next (skipIf (test (aq t) m) t)) :
    CompletesDouble i (fun x _ => x) test := by
  intro b y s h m
  have hexec : exec (i b y) s = .next (skipIf (test (aq s) m) (noteStorage b y s)) := by
    rw [hi, readDouble_ok b y s h, Res.andThen_ok, aq_noteStorage]
  obtain ⟨t, ht, hpc, ha, hq, hctl, hkept⟩ := skipIf_noteStorage_answers hexec
  exact ⟨t, ht, aq_ofRegisters s t ha hq, hpc, hctl, hkept⟩

/-- A decimal comparison completes; it skips by its test where all digits are at most 9 (R386, R387). -/
theorem decimalCompare_answers (test : DWord → DWord → Bool) (h : doubleReadable b y s = true) :
    Answers (decimalCompare test b y s) fun t =>
      (decValid (aq s) = true ∧ decValid (doubleValue b y s) = true → t.pc = pcAfter s (test (aq s) (doubleValue b y s))) ∧
        ComparesStorage b y s t := by
  rw [decimalCompare, readDouble_ok b y s h, Res.andThen_ok, aq_noteStorage]
  simp only [Bool.and_eq_true]
  by_cases hvalid : decValid (aq s) = true ∧ decValid (doubleValue b y s) = true
  case pos =>
    obtain ⟨t, ht, hpc, hrest⟩ := skipIf_noteStorage_answers (if_pos hvalid)
    exact ⟨t, ht, fun _ => hpc, hrest⟩
  case neg => exact ⟨_, if_neg hvalid, fun hdigits => absurd hdigits hvalid, (comparesStorage_skipIf _).spend⟩

/-- 7713 tests both magnitude and sign (R386). -/
theorem execDecimalCompareEqual_eq (b : BitVec 3) (y : BitVec 15) (s : State) : execDecimalCompareEqual b y s =
    decimalCompare (fun x m => decide (decMag x = decMag m ∧ decPlus x = decPlus m)) b y s := by
  simp only [execDecimalCompareEqual, beq_eq_decide, Bool.decide_and]

/-- A 77 word that skips by a test of A, Q and one word completes. -/
theorem wordCompare_answers {test : Word → State → Bool} (htest : ∀ m, OfRegisters (test m))
    (hr : r = (readWord b y s).andThen fun m t => .next (skipIf (test m t) t)) (h : canRead (opAddr b y s) 0 s = true) :
    Answers r fun t => t.pc = pcAfter s (test (operandWord b y 0 s) s) ∧ ComparesStorage b y s t := by
  refine skipIf_noteStorage_answers (hr.trans ?_)
  rw [readWord_ok b y s h, Res.andThen_ok, htest _ s _ (noteStorage_a b y s) (noteStorage_q b y s)]

end

/-- Settles O3: 04 and 43 only skip, each by its column. -/
theorem compareCompletes : Obligations.CompareCompletes := by
  unfold Obligations.CompareCompletes
  simp only [← skipCompare_eq, ← skipMasked_eq]
  exact ⟨completesCompare skipCompare_ofRegisters fun _ _ _ _ _ => rfl, completesCompare skipMasked_ofRegisters fun _ _ _ _ _ => rfl⟩

/-- Settles O14: the six only skip, by a test of AQ and two words, of decimal words, or of A and one word under the mask. -/
theorem doubleAndMaskedComparesComplete : Obligations.DoubleAndMaskedComparesComplete := by
  unfold Obligations.DoubleAndMaskedComparesComplete
  refine ⟨?equal, ?less, fun b y s h => ⟨?decimalEqual, ?decimalLess⟩, fun b y s h => ⟨?maskedEqual, ?maskedLess⟩⟩
  case equal => exact completesDoubleCompare fun _ _ _ => rfl
  case less => exact completesDoubleCompare fun _ _ _ => rfl
  case decimalEqual =>
    show Answers (execDecimalCompareEqual b y s) _
    rw [execDecimalCompareEqual_eq]
    exact decimalCompare_answers _ h
  case decimalLess => exact decimalCompare_answers (fun x m => decide (decKey x < decKey m)) h
  case maskedEqual =>
    exact wordCompare_answers (test := fun m t => t.a &&& t.q == m &&& t.q) (fun _ _ _ ha hq => by simp only [ha, hq]) rfl h
  case maskedLess =>
    exact wordCompare_answers (test := fun m t => (t.a &&& t.q).ult (m &&& t.q)) (fun _ _ _ ha hq => by simp only [ha, hq]) rfl h

end Sys2Proof.Machine
end

section
/-! What a jump looks at (47_jump.md R400, R405): states that differ in the lockout, the channel registers and the index registers jump
alike, so the jump is followed from the state that the operand leaves, whatever the instruction has done to those before it. -/

namespace Sys2Proof.Machine

open Sys2Proof

/-! ## States that jump alike -/

/-- u is n but for the lockout, the channel registers and the index registers, at which no jump looks. -/
def JumpsAs (n u : State) : Prop := ∃ l c e w, u = (((n.setLockout l).setSel c).setBExec e).setBWork w

theorem JumpsAs.refl (n : State) : JumpsAs n n := ⟨n.lockout, n.sel, n.bExec, n.bWork, rfl⟩

theorem jumpsAs_releaseLockout (n : State) : JumpsAs n (releaseLockout n) := 
  ⟨(releaseLockout n).lockout, (releaseLockout n).sel, n.bExec, n.bWork, rfl⟩

theorem jumpsAs_setLockout (n : State) : JumpsAs n (setLockout n) := by
  refine ⟨(setLockout n).lockout, n.sel, n.bExec, n.bWork, ?_⟩
  unfold setLockout
  split <;> rfl

theorem jumpsAs_bWritePhysical (c : BView) (i : BitVec 3) (v : Addr) (n : State) : JumpsAs n (bWritePhysical c i v n) := by
  refine ⟨n.lockout, n.sel, (bWritePhysical c i v n).bExec, (bWritePhysical c i v n).bWork, ?_⟩
  unfold bWritePhysical putBSet
  split <;> rfl

section

variable {s n u t : State} {a : Addr}

theorem JumpsAs.afterConvert (h : JumpsAs n u) : JumpsAs (afterConvert n) (afterConvert u) := by
  obtain ⟨l, c, e, w, rfl⟩ := h
  refine ⟨l, c, e, w, ?_⟩
  by_cases hdue : n.ctl.newIfr = .due
  · have hn : Machine.afterConvert n = activate n := if_pos hdue
    rw [hn]
    exact (if_pos hdue).trans rfl
  · have hn : Machine.afterConvert n = n := if_neg hdue
    rw [hn]
    exact if_neg hdue

theorem JumpsAs.loadPc (h : JumpsAs n u) (a : Addr) : JumpsAs (loadPc a n) (loadPc a u) := by
  obtain ⟨l, c, e, w, rfl⟩ := h
  refine ⟨l, c, e, w, ?_⟩
  by_cases hreinit : n.ctl.reinit = true
  · have hn : Machine.loadPc a n = _ := if_pos hreinit
    rw [hn]
    exact (if_pos hreinit).trans rfl
  · have hn : Machine.loadPc a n = n.setPc a := if_neg hreinit
    rw [hn]
    exact (if_neg hreinit).trans rfl

theorem JumpsAs.storeWord (h : JumpsAs n u) (a : Addr) (p : Part) (v : Word) : JumpsAs (storeWord a p v n) (storeWord a p v u) := by
  obtain ⟨l, c, e, w, rfl⟩ := h
  exact ⟨l, c, e, w, rfl⟩

theorem JumpsAs.convert_fst (h : JumpsAs n u) (b : BitVec 3) (r : Addr) : (convert b r u).1 = (convert b r n).1 := by
  obtain ⟨l, c, e, w, rfl⟩ := h
  unfold convert
  simp only [State.setBWork_ctl, State.setBExec_ctl, State.setSel_ctl, State.setLockout_ctl]
  split <;> rfl

theorem JumpsAs.destAllowed (h : JumpsAs n u) (o : OpAddr) : destAllowed o u = destAllowed o n := by
  obtain ⟨l, c, e, w, rfl⟩ := h
  rfl

theorem JumpsAs.returnAllowed (h : JumpsAs n u) (o : OpAddr) : returnAllowed o u = returnAllowed o n := by
  obtain ⟨l, c, e, w, rfl⟩ := h
  rfl

theorem JumpsAs.relPc (h : JumpsAs n u) : relPc u = relPc n := by
  obtain ⟨l, c, e, w, rfl⟩ := h
  rfl

theorem JumpsAs.guardOn (h : JumpsAs n u) : guardOn u = guardOn n := by
  obtain ⟨l, c, e, w, rfl⟩ := h
  rfl

/-- What a taken jump has to leave says nothing of what `JumpsAs` leaves open. -/
theorem JumpsAs.jumpedTo (h : JumpsAs t u) (ht : JumpedTo a n s t) : JumpedTo a n s u := by
  obtain ⟨l, c, e, w, rfl⟩ := h
  exact ht

/-! ## The jump -/

/-- n is s with the operand taken: f1 may be written and a newly loaded IFR in force, and nothing else has changed. -/
def OperandTaken (s n : State) : Prop := Kept s n ∧ n.a = s.a ∧ n.q = s.q ∧ n.pc = s.pc

theorem operandTaken_jumpNote (k : BitVec 3) (s : State) : OperandTaken s (jumpNote k s) := jumpNote_frame k s

theorem operandTaken_capture (s : State) : OperandTaken s (capture s.pc s) :=
  ⟨capture_kept _ s, capture_a _ s, capture_q _ s, capture_pc _ s⟩

theorem OperandTaken.jumpedTo_loadPc (hn : OperandTaken s n) (a : Addr) : JumpedTo a n s (loadPc a (afterConvert n)) := by
  obtain ⟨⟨-, ⟨-, hchans, hclk, houtputs, hpanel⟩, ⟨-, -, hpending, -, hfetch, hentry, hinputs, hcfg⟩, hword, hparity⟩, ha, hq, -⟩ := hn
  unfold wordAt at hword
  simp [JumpedTo, SameMemory, wordAt, *]

/-- An allowed jump from a state that jumps as n does. -/
theorem jumpTo_jumps {b : BitVec 3} {r : Addr} {f g : State → State} (hu : JumpsAs n u)
    (hd : destAllowed (convert b r n).1 (afterConvert n) = true) :
    jumpTo b r f g u = .next (g (loadPc (convert b r n).1.base (afterConvert u))) := by
  rw [← hu.afterConvert.destAllowed, ← hu.convert_fst] at hd
  rw [jumpTo_ok _ _ _ _ _ hd, hu.convert_fst]

theorem OperandTaken.jumpedTo (hn : OperandTaken s n) (hu : JumpsAs n u) (a : Addr) : JumpedTo a n s (loadPc a (afterConvert u)) :=
  (hu.afterConvert.loadPc a).jumpedTo (hn.jumpedTo_loadPc a)

/-! ## The return jump -/

theorem toNat_relPc (s : State) : (relPc s).toNat = relativePc s := by
  have hbase : (s.ctl.rirIV ++ 0#6 : BitVec (11 + 6)).toNat = s.ctl.rirIV.toNat * 64 := by
    rw [BitVec.toNat_append, Nat.shiftLeft_eq]
    simp
  have hle := s.pc.isLt
  unfold relPc relativePc
  simp only [hbase]
  split
  · rw [BitVec.toNat_sub, hbase]
    omega
  · rename_i hbelow
    exact (Nat.sub_eq_zero_of_le (Nat.le_of_not_le hbelow)).symm

theorem relativePc_afterConvert (n : State) : relativePc (afterConvert n) = relativePc n := by
  unfold afterConvert
  split <;> rfl

theorem relativePc_capture (v : Addr) (s : State) : relativePc (capture v s) = relativePc s := by
  unfold capture
  split <;> rfl

theorem relativePc_jumpNote (k : BitVec 3) (s : State) : relativePc (jumpNote k s) = relativePc s := by
  unfold jumpNote
  split
  · exact relativePc_capture _ s
  · rw [relativePc_afterConvert, relativePc_capture]

theorem lowerHalf_relPc (s : State) : lowerHalf ((relPc s).setWidth 30) = BitVec.ofNat 15 (relativePc s) := by
  apply BitVec.eq_of_toNat_eq
  rw [← toNat_relPc]
  simp [lowerHalf]

/-- A return jump has been taken: the return address is in the lower half of the word at d, and P is behind it (R405). -/
def ReturnStored (d : Addr) (n s t : State) : Prop :=
  t.pc = d + 1 ∧ t.ctl = (loadPc (d + 1) (afterConvert n)).ctl ∧
    wordAt t d = upperHalf (wordAt s d) ++ BitVec.ofNat 15 (relativePc s) ∧ MemoryKeptBut [d] s t ∧ ParityStored d .lower s t ∧
    t.rep = (loadPc (d + 1) (afterConvert n)).rep

theorem JumpsAs.returnStored (h : JumpsAs t u) (ht : ReturnStored a n s t) : ReturnStored a n s u := by
  obtain ⟨l, c, e, w, rfl⟩ := h
  exact ht

/-- The state in which a return jump to d goes on. -/
def returned (d : Addr) (u : State) : State :=
  loadPc (d + 1) (storeWord d .lower ((relPc (afterConvert u)).setWidth 30) (afterConvert u))

theorem JumpsAs.returned (h : JumpsAs n u) (d : Addr) : JumpsAs (returned d n) (returned d u) := by
  unfold Machine.returned
  rw [h.afterConvert.relPc]
  exact (h.afterConvert.storeWord _ _ _).loadPc _

theorem returnStored_returned (hn : OperandTaken s n) (hrel : relativePc n = relativePc s) (d : Addr) :
    ReturnStored d n s (returned d n) := by
  obtain ⟨⟨-, -, -, hword, hparity⟩, -⟩ := hn
  have hwordAfter : ∀ x, wordAt (afterConvert n) x = wordAt s x := fun x => by rw [← hword x]; simp [wordAt]
  have hparityAfter : (afterConvert n).parity = s.parity := (afterConvert_parity n).trans hparity
  have hload : ∀ x, wordAt (returned d n) x =
      wordAt (storeWord d .lower ((relPc (afterConvert n)).setWidth 30) (afterConvert n)) x := fun x => by simp [returned, wordAt]
  have hbehind : wordAt (storeWord d .lower ((relPc (afterConvert n)).setWidth 30) (afterConvert n)) (d + 1) =
      wordAt (afterConvert n) (d + 1) := by
    rw [wordAt_storeWord, if_neg (by simp)]
  obtain ⟨hctl, hrep⟩ := loadPc_congr (d + 1) (storeWord_ctl _ _ _ _) (storeWord_rep _ _ _ _) hbehind
  refine ⟨loadPc_pc _ _, hctl, ?_, fun x hx => ?_, fun x upper => ?_, hrep⟩
  · rw [hload, wordAt_storeWord, if_pos rfl, hwordAfter, mergePart, lowerHalf_relPc, relativePc_afterConvert, hrel]
  · rw [hload, wordAt_storeWord, if_neg (fun h => hx (by simp [h])), hwordAfter]
  · have hstored := storeWord_parity d .lower ((relPc (afterConvert n)).setWidth 30) (afterConvert n) x upper
    simp only [halfBad, hparityAfter] at hstored
    simp only [halfBad, returned, loadPc_parity, hstored]

theorem returnJump_returns {b : BitVec 3} {r : Addr} {g : State → State} (hu : JumpsAs n u)
    (hd : returnAllowed (convert b r n).1 (afterConvert n) = true) :
    returnJump b r g u = .next (g (returned (convert b r n).1.base u)) := by
  rw [← hu.afterConvert.returnAllowed, ← hu.convert_fst] at hd
  rw [returnJump_ok _ _ _ _ hd, hu.convert_fst]
  rfl

end

end Sys2Proof.Machine
end

section
/-! 60, 61, 64 and 65 (47_jump.md R400 to R406): the j columns of R402 and R403, and what each leaves where it jumps and where it does
not. -/

namespace Sys2Proof.Machine

open Sys2Proof

/-! ## The j columns -/

/-- The 60/64 column (R402). -/
def ArithmeticTaken (j : BitVec 3) (s : State) : Prop :=
  j = 1#3 ∨ (j = 2#3 ∧ s.q.getLsbD 29 = false) ∨ (j = 3#3 ∧ s.q.getLsbD 29 = true) ∨ (j = 4#3 ∧ s.a = 0) ∨
    (j = 5#3 ∧ s.a ≠ 0) ∨ (j = 6#3 ∧ s.a.getLsbD 29 = false) ∨ (j = 7#3 ∧ s.a.getLsbD 29 = true)

theorem jumpCond_iff (j : BitVec 3) (s : State) : jumpCond j s = true ↔ ArithmeticTaken j s := by
  rcases designator_cases j with rfl | rfl | rfl | rfl | rfl | rfl | rfl | rfl <;>
    simp [jumpCond, ArithmeticTaken, BitVec.msb_eq_getLsbD_last]

theorem ArithmeticTaken.ne_zero {j : BitVec 3} {s : State} (h : ArithmeticTaken j s) : j ≠ 0#3 := by
  rintro rfl
  exact Bool.false_ne_true ((jumpCond_iff 0#3 s).2 h)

theorem jumpCond_ofRegisters (j : BitVec 3) : OfRegisters (jumpCond j) := by
  intro s t ha hq
  unfold jumpCond
  rw [ha, hq]

/-- The jump column of 61 and 65 (R403). -/
def ManualTaken (j : BitVec 3) (s : State) : Prop :=
  (j = 1#3 → s.panel.key1 = true) ∧ (j = 2#3 → s.panel.key2 = true) ∧ (j = 3#3 → s.panel.key3 = true)

theorem manualJump_iff (j : BitVec 3) (s : State) : manualJump j s = true ↔ ManualTaken j s := by
  rcases designator_cases j with rfl | rfl | rfl | rfl | rfl | rfl | rfl | rfl <;> simp [manualJump, ManualTaken]

/-- The stop column of 61 and 65 (R403). -/
def ManualStops (j : BitVec 3) (s : State) : Prop :=
  j = 4#3 ∨ (j = 5#3 ∧ s.panel.stopKey5 = true) ∨ (j = 6#3 ∧ s.panel.stopKey6 = true) ∨ (j = 7#3 ∧ s.panel.stopKey7 = true)

theorem manualStop_iff (j : BitVec 3) (s : State) : manualStop j s = true ↔ ManualStops j s := by
  rcases designator_cases j with rfl | rfl | rfl | rfl | rfl | rfl | rfl | rfl <;> simp [manualStop, ManualStops]

/-- The columns of the keys depend on the panel alone. -/
theorem manualColumns_congr {s t : State} (h : t.panel = s.panel) (j : BitVec 3) :
    manualJump j t = manualJump j s ∧ manualStop j t = manualStop j s := by
  unfold manualJump manualStop
  rw [h]
  exact ⟨rfl, rfl⟩

/-! ## The lockout -/

@[simp] theorem releaseLockout_lockout (s : State) :
    (releaseLockout s).lockout = { locked := false, bySil := false, silTimer := 0 } := rfl

@[simp] theorem releaseLockout_sel (s : State) : (releaseLockout s).sel = { s.sel with useIasr := false, usePecsr := false } := rfl

/-- The lockout is set; where it was clear it is marked as set by SIL (R405). -/
def LockoutSet (s t : State) : Prop :=
  t.lockout.locked = true ∧ (s.lockout.locked = true → t.lockout = s.lockout) ∧
    (s.lockout.locked = false → t.lockout.bySil = true ∧ t.lockout.silTimer = 0)

theorem lockoutSet_setLockout {s n t : State} (hn : n.lockout = s.lockout) (ht : t.lockout = (setLockout n).lockout) : LockoutSet s t := by
  unfold LockoutSet
  rw [ht, ← hn]
  unfold setLockout
  cases h : n.lockout.locked <;> simp [h]

/-- What 60 and 64 do to the lockout before they jump: with j = 1 the given act, else nothing. -/
def lockoutAct (act : State → State) (j : BitVec 3) (n : State) : State := if j = 1#3 then act n else n

theorem jumpsAs_lockoutAct {act : State → State} (hact : ∀ n, JumpsAs n (act n)) (j : BitVec 3) (n : State) :
    JumpsAs n (lockoutAct act j n) := by
  unfold lockoutAct
  split
  · exact hact n
  · exact JumpsAs.refl n

/-- What the act keeps. -/
theorem lockoutAct_field {β : Type} (f : State → β) {act : State → State} (hact : ∀ n, f (act n) = f n) (j : BitVec 3) (n : State) :
    f (lockoutAct act j n) = f n := by
  unfold lockoutAct
  split
  · exact hact n
  · rfl

theorem lockoutAct_of_ne {act : State → State} {j : BitVec 3} (h : j ≠ 1#3) (n : State) : lockoutAct act j n = n := if_neg h

/-! ## The stop keys -/

/-- `Stop()` changes RUN alone (R404). -/
theorem stopIf_eq (j : BitVec 3) (t : State) : stopIf j t = t.setRun (t.run && !(manualStop j t && !guardOn t)) := by
  unfold stopIf stopCpu
  cases manualStop j t <;> cases guardOn t <;> simp <;> rfl

theorem stopIf_run {s t m : State} (j : BitVec 3) (hrun : t.run = s.run) (hpanel : t.panel = s.panel) (hguard : guardOn t = guardOn m) :
    (ManualStops j s ∧ guardOn m = false → (stopIf j t).run = false) ∧
      (¬ ManualStops j s ∨ guardOn m = true → (stopIf j t).run = s.run) := by
  obtain ⟨-, hstop⟩ := manualColumns_congr hpanel j
  rw [stopIf_eq, State.setRun_run, hrun, hstop, hguard, ← manualStop_iff]
  cases manualStop j s <;> cases guardOn m <;> simp

theorem guardOn_loadPc (a : Addr) (s : State) : guardOn (loadPc a s) = guardOn s := by
  unfold loadPc
  simp only []
  split <;> rfl

theorem guardOn_returned (d : Addr) (n : State) : guardOn (returned d n) = guardOn (afterConvert n) := guardOn_loadPc _ _

/-! ## What a return jump leaves beside P, storage, the lockout and RUN -/

/-- The registers, the I/O side and the requests are as before; a return jump changes none of them. -/
def ReturnKept (s t : State) : Prop :=
  SameIndex s t ∧ SameIo s t ∧ t.a = s.a ∧ t.q = s.q ∧ t.pending = s.pending ∧ t.fetch = s.fetch

theorem OperandTaken.returnKept {s n : State} (h : OperandTaken s n) : ReturnKept s n := by
  obtain ⟨⟨hindex, hio, ⟨-, -, hpending, -, hfetch, -⟩, -⟩, ha, hq, -⟩ := h
  exact ⟨hindex, hio, ha, hq, hpending, hfetch⟩

theorem returnKept_setLockout (s n : State) : ReturnKept s (setLockout n) = ReturnKept s n := by
  simp [ReturnKept, SameIndex, SameIo]

theorem returnKept_returned (d : Addr) (s n : State) : ReturnKept s (returned d n) = ReturnKept s n := by
  simp [ReturnKept, SameIndex, SameIo, returned]

@[simp] theorem returned_run (d : Addr) (n : State) : (returned d n).run = n.run := by simp [returned]

@[simp] theorem returned_lockout (d : Addr) (n : State) : (returned d n).lockout = n.lockout := by simp [returned]

@[simp] theorem returned_panel (d : Addr) (n : State) : (returned d n).panel = n.panel := by simp [returned]

section

variable {s : State} {j k b : BitVec 3} {y : BitVec 15}

/-! ## What each instruction does once its operand has been had -/

/-- The column is on A and Q, which neither the operand nor the lockout changes. -/
theorem jumpCond_lockoutAct {act : State → State} (hact : ∀ n, JumpsAs n (act n)) (j k : BitVec 3) (s : State) :
    jumpCond j (lockoutAct act j (jumpNote k s)) = jumpCond j s := by
  obtain ⟨-, ha, hq, -⟩ := operandTaken_jumpNote k s
  obtain ⟨_, _, _, _, hu⟩ := jumpsAs_lockoutAct hact j (jumpNote k s)
  exact jumpCond_ofRegisters j _ _ (hu ▸ ha) (hu ▸ hq)

theorem manualJump_jumpNote (j k : BitVec 3) (s : State) : manualJump j (jumpNote k s) = manualJump j s := by
  obtain ⟨⟨-, ⟨-, -, -, -, hpanel⟩, -⟩, -⟩ := operandTaken_jumpNote k s
  obtain ⟨hjump, -⟩ := manualColumns_congr hpanel j
  exact hjump

theorem exec_jumpArithmetic (hj : j ≠ 0#3) (hr : operandReadable k b y s = true) :
    exec (.jumpArithmetic j k b y) s =
      if jumpCond j s then
        jumpTo b (jumpRel k (operandValue k b y s) (jumpNote k s)) id id (lockoutAct releaseLockout j (jumpNote k s))
      else .next (lockoutAct releaseLockout j (jumpNote k s)) := by
  rw [← jumpCond_lockoutAct jumpsAs_releaseLockout j k]
  show execJumpArithmetic j k b y s = _
  rw [execJumpArithmetic, if_neg hj, jumpOperand_ok k b y s hr]
  rfl

theorem exec_returnJumpArithmetic (hj : j ≠ 0#3) (hr : operandReadable k b y s = true) :
    exec (.returnJumpArithmetic j k b y) s =
      if jumpCond j s then
        returnJump b ((lowerHalf (operandValue k b y s)).setWidth 17) id (lockoutAct setLockout j (jumpNote k s))
      else .next (lockoutAct setLockout j (jumpNote k s)) := by
  rw [← jumpCond_lockoutAct jumpsAs_setLockout j k]
  show execReturnJumpArithmetic j k b y s = _
  rw [execReturnJumpArithmetic, if_neg hj, jumpOperand_ok k b y s hr]
  rfl

theorem exec_jumpManual (hr : operandReadable k b y s = true) :
    exec (.jumpManual j k b y) s =
      if manualJump j s then jumpTo b (jumpRel k (operandValue k b y s) (jumpNote k s)) id (stopIf j) (jumpNote k s)
      else .next (jumpNote k s) := by
  rw [← manualJump_jumpNote j k]
  show execJumpManual j k b y s = _
  rw [execJumpManual, jumpOperand_ok k b y s hr]
  rfl

theorem exec_returnJumpManual (hr : operandReadable k b y s = true) :
    exec (.returnJumpManual j k b y) s =
      if manualJump j s then returnJump b ((lowerHalf (operandValue k b y s)).setWidth 17) (stopIf j) (jumpNote k s)
      else .next (jumpNote k s) := by
  rw [← manualJump_jumpNote j k]
  show execReturnJumpManual j k b y s = _
  rw [execReturnJumpManual, jumpOperand_ok k b y s hr]
  rfl

end

/-- Settles O23: with j = 1 the lockout is released before the jump, which does not look at it. -/
theorem jumpArithmeticCompletes : Obligations.JumpArithmeticCompletes := by
  unfold Obligations.JumpArithmeticCompletes
  intro j k b y s released kept cond rest
  have hrest : ∀ {t}, Kept s t → t.a = s.a → t.q = s.q → rest t := by
    rintro t ⟨hindex, ⟨-, hchans, -, houtputs, -⟩, ⟨hrun, -, hpending, -, hfetch, -⟩, hmem⟩ ha hq
    exact ⟨hindex, hmem, ha, hq, hrun, hpending, hchans, houtputs, hfetch⟩
  refine ⟨fun hj => ?release, fun hj hr hfails => ?fails, fun hholds hr hdest => ?jumps⟩
  case release =>
    subst hj
    obtain ⟨hkept, ha, hq, hpc⟩ := operandTaken_capture s
    have hcaptured : rest (capture s.pc s) := hrest hkept ha hq
    exact ⟨_, rfl, ⟨rfl, by simp⟩, hpc, rfl, capture_rep _ s, hcaptured⟩
  case fails =>
    have hj1 : j ≠ 1#3 := fun h => hfails (.inl h)
    have hcond : ¬ jumpCond j s = true := fun h => hfails ((jumpCond_iff j s).1 h)
    obtain ⟨hkept, ha, hq, hpc⟩ := operandTaken_jumpNote k s
    obtain ⟨-, ⟨hsel, -⟩, ⟨-, hlockout, -, hrep, -⟩, -⟩ := id hkept
    refine ⟨jumpNote k s, ?_, ⟨hlockout, hsel⟩, hpc, rfl, hrep, hrest hkept ha hq⟩
    rw [exec_jumpArithmetic hj hr, if_neg hcond, lockoutAct_of_ne hj1]
  case jumps =>
    have hj : j ≠ 0#3 := ArithmeticTaken.ne_zero hholds
    have hcond : jumpCond j s = true := (jumpCond_iff j s).2 hholds
    have hu : JumpsAs (jumpNote k s) (lockoutAct releaseLockout j (jumpNote k s)) := jumpsAs_lockoutAct jumpsAs_releaseLockout j _
    have hjumped := (operandTaken_jumpNote k s).jumpedTo hu (jumpDest k b y s).base
    obtain ⟨⟨⟨hexec, hwork⟩, ⟨hsel, -⟩, ⟨hrun, hlockout, -⟩, -⟩, -⟩ := operandTaken_jumpNote k s
    have hexecU := lockoutAct_field State.bExec releaseLockout_bExec j (jumpNote k s)
    have hworkU := lockoutAct_field State.bWork releaseLockout_bWork j (jumpNote k s)
    have hrunU := lockoutAct_field State.run releaseLockout_run j (jumpNote k s)
    obtain ⟨-, -, -, ha, hq, hmem, hpending, hchans, houtputs, hfetch, -⟩ := id hjumped
    refine ⟨_, (exec_jumpArithmetic hj hr).trans ((if_pos hcond).trans (jumpTo_jumps hu hdest)), hjumped,
      ⟨⟨?_, ?_⟩, hmem, ha, hq, ?_, hpending, hchans, houtputs, hfetch⟩, ?_⟩
    · simp [hexecU, hexec]
    · simp [hworkU, hwork]
    · simp [hrunU, hrun]
    · by_cases hj1 : j = 1#3
      · subst hj1
        exact ⟨by simp [lockoutAct], by simp [lockoutAct, hsel]⟩
      · rw [if_neg hj1, lockoutAct_of_ne hj1]
        exact ⟨by simp [hlockout], by simp [hsel]⟩

/-- Settles O24: RUN is looked at after the jump, in the guard mode of the state that the conversion of the target leaves. -/
theorem jumpManualCompletes : Obligations.JumpManualCompletes := by
  unfold Obligations.JumpManualCompletes
  intro j k b y s hr taken stops rest
  obtain ⟨hkept, ha, hq, hpc⟩ := operandTaken_jumpNote k s
  refine ⟨fun hfails => ?fails, fun hholds hdest => ?jumps⟩
  case fails =>
    have hkeys : ¬ manualJump j s = true := fun h => hfails ((manualJump_iff j s).1 h)
    exact ⟨_, (exec_jumpManual hr).trans (if_neg hkeys), hpc, rfl, ha, hq, hkept⟩
  case jumps =>
    have hkeys : manualJump j s = true := (manualJump_iff j s).2 hholds
    have hjumped := (operandTaken_jumpNote k s).jumpedTo_loadPc (jumpDest k b y s).base
    obtain ⟨⟨hexec, hwork⟩, ⟨hsel, -, -, -, hpanel⟩, ⟨hrun, hlockout, -⟩, -⟩ := hkept
    have hstop := stopIf_run (s := s) j (t := loadPc (jumpDest k b y s).base (afterConvert (jumpNote k s))) (by simp [hrun])
      (by simp [hpanel]) (guardOn_loadPc _ _)
    refine ⟨_, (exec_jumpManual hr).trans ((if_pos hkeys).trans (jumpTo_jumps (JumpsAs.refl _) hdest)), ?_, ?_, hstop⟩
    · rw [stopIf_eq]
      exact hjumped
    · rw [stopIf_eq]
      obtain ⟨-, -, -, ha', hq', hmem, -⟩ := hjumped
      exact ⟨⟨by simp [hexec], by simp [hwork]⟩, hmem, ha', hq', by simp [hlockout], by simp [hsel]⟩

/-- Settles O25: both store and go on behind the stored word; 64 sets the lockout before, 65 stops after. -/
theorem returnJumpsComplete : Obligations.ReturnJumpsComplete := by
  unfold Obligations.ReturnJumpsComplete
  intro j k b y s locks cond keys stops rest n d stored
  have hn : OperandTaken s n := operandTaken_jumpNote k s
  have hrestN : rest n := hn.returnKept
  obtain ⟨⟨-, ⟨-, -, -, -, hpanel⟩, ⟨hrun, hlockout, -, hrep, -⟩, hmem⟩, -, -, hpc⟩ := id hn
  have hstored : ∀ {u}, JumpsAs n u → stored (returned d u) := fun hu =>
    (hu.returned d).returnStored (returnStored_returned hn (relativePc_jumpNote k s) d)
  refine ⟨fun hj => ?sets, fun hr => ⟨fun hj hfails => ?arithmeticFails, fun hfails => ?manualFails,
    fun hdest => ⟨fun hholds => ?arithmeticJumps, fun hholds => ?manualJumps⟩⟩⟩
  case sets =>
    subst hj
    have hcaptured := operandTaken_capture s
    obtain ⟨⟨-, -, ⟨hrun, hlockout, -, hrep, -⟩, hword, hparity⟩, -, -, hpc⟩ := id hcaptured
    refine ⟨_, rfl, lockoutSet_setLockout hlockout rfl, (setLockout_pc _).trans hpc, setLockout_ctl _, (setLockout_rep _).trans hrep,
      (setLockout_run _).trans hrun, ⟨fun x => ?_, (setLockout_parity _).trans hparity⟩, ?_⟩
    · rw [← hword x, wordAt, setLockout_mem]
      rfl
    · have hkept := hcaptured.returnKept
      rw [← returnKept_setLockout] at hkept
      exact hkept
  case arithmeticFails =>
    have hj1 : j ≠ 1#3 := fun h => hfails (.inl h)
    have hcond : ¬ jumpCond j s = true := fun h => hfails ((jumpCond_iff j s).1 h)
    have hexec : exec (.returnJumpArithmetic j k b y) s = .next (lockoutAct setLockout j n) :=
      (exec_returnJumpArithmetic hj hr).trans (if_neg hcond)
    rw [lockoutAct_of_ne hj1] at hexec
    exact ⟨n, hexec, hlockout, hpc, rfl, hrep, hrun, hmem, hrestN⟩
  case manualFails =>
    have hkeys : ¬ manualJump j s = true := fun h => hfails ((manualJump_iff j s).1 h)
    exact ⟨n, (exec_returnJumpManual hr).trans (if_neg hkeys), hlockout, hpc, rfl, hrep, hrun, hmem, hrestN⟩
  case arithmeticJumps =>
    have hcond : jumpCond j s = true := (jumpCond_iff j s).2 hholds
    have hu : JumpsAs n (lockoutAct setLockout j n) := jumpsAs_lockoutAct jumpsAs_setLockout j n
    have hexec : exec (.returnJumpArithmetic j k b y) s = .next (returned d (lockoutAct setLockout j n)) :=
      (exec_returnJumpArithmetic (ArithmeticTaken.ne_zero hholds) hr).trans ((if_pos hcond).trans (returnJump_returns hu hdest))
    have hrest : ReturnKept s (returned d (lockoutAct setLockout j n)) := by
      rw [returnKept_returned, lockoutAct_field (ReturnKept s) (returnKept_setLockout s)]
      exact hrestN
    have hrunU := lockoutAct_field State.run setLockout_run j n
    refine ⟨_, hexec, hstored hu, (returned_run _ _).trans (hrunU.trans hrun), hrest, ?_⟩
    by_cases hj1 : j = 1#3
    · subst hj1
      exact lockoutSet_setLockout hlockout (returned_lockout _ _)
    · rw [if_neg hj1, lockoutAct_of_ne hj1, returned_lockout]
      exact hlockout
  case manualJumps =>
    have hkeys : manualJump j s = true := (manualJump_iff j s).2 hholds
    have hexec : exec (.returnJumpManual j k b y) s = .next (stopIf j (returned d n)) :=
      (exec_returnJumpManual hr).trans ((if_pos hkeys).trans (returnJump_returns (JumpsAs.refl n) hdest))
    have hstop := stopIf_run (s := s) (t := returned d n) j ((returned_run d n).trans hrun) ((returned_panel d n).trans hpanel)
      (guardOn_returned d n)
    have hrest : ReturnKept s (returned d n) := by
      rw [returnKept_returned]
      exact hrestN
    refine ⟨_, hexec, ?_, ?_, ?_, hstop⟩
    · rw [stopIf_eq]
      exact hstored (JumpsAs.refl n)
    · rw [stopIf_eq]
      exact (returned_lockout d n).trans hlockout
    · rw [stopIf_eq]
      exact hrest

end Sys2Proof.Machine
end

section
/-! 7740 to 7747 (47_jump.md R415, R416): the return address in an index register, and the jump to the target formed before. -/

namespace Sys2Proof.Machine

open Sys2Proof

/-- B0 is no register (R28). -/
theorem bWritePhysical_zero (c : BView) (v : Addr) (s : State) : bWritePhysical c 0#3 v s = s := by
  unfold bWritePhysical putBSet bSetOf
  cases c.worker <;> rfl

/-- Where 7737 and 7740 to 7747 go: `ybar` is formed from the original B_b (R415). -/
def directTarget (b : BitVec 3) (y : BitVec 15) (s : State) : OpAddr := (convert b (effective b y s) (capture s.pc s)).1

section

variable {s : State} {b : BitVec 3} {y : BitVec 15}

/-- Each of the eight instructions writes its register and jumps. -/
theorem exec_enterBJump {g : BitVec 3} {i : BitVec 3 → BitVec 15 → Instr}
    (hmem : (g, i) ∈ [(0#3, Instr.enterB0Jump), (1#3, .enterB1Jump), (2#3, .enterB2Jump), (3#3, .enterB3Jump), (4#3, .enterB4Jump),
      (5#3, .enterB5Jump), (6#3, .enterB6Jump), (7#3, .enterB7Jump)])
    (hdest : destAllowed (directTarget b y s) (afterConvert (capture s.pc s)) = true) :
    exec (i b y) s = .next (loadPc (directTarget b y s).base
      (afterConvert (bWritePhysical (bView s) g (relPc (capture s.pc s)) (capture s.pc s)))) := by
  unfold directTarget at *
  rw [← effective_capture s.pc] at *
  rw [← bView_capture s.pc s]
  simp only [List.mem_cons, Prod.mk.injEq, List.not_mem_nil, or_false] at hmem
  rcases hmem with ⟨rfl, rfl⟩ | ⟨rfl, rfl⟩ | ⟨rfl, rfl⟩ | ⟨rfl, rfl⟩ | ⟨rfl, rfl⟩ | ⟨rfl, rfl⟩ | ⟨rfl, rfl⟩ | ⟨rfl, rfl⟩
  case inl =>
    rw [bWritePhysical_zero]
    exact jumpTo_jumps (JumpsAs.refl _) hdest
  all_goals exact jumpTo_jumps (jumpsAs_bWritePhysical _ _ _ _) hdest

/-- The return address in B_g, as far as the register is wide (R416). -/
theorem toNat_read_bWritePhysical_relPc (c : BView) (g : BitVec 3) (s : State) :
    ((bSetOf c (bWritePhysical c g (relPc s) s)).read g).toNat =
      if g = 0#3 then 0 else relativePc s % 2 ^ (if g.toNat < 4 then 15 else 17) := by
  obtain ⟨hread, -⟩ := bWritePhysical_frame c g (relPc s) s
  have hlt := (relPc s).isLt
  rw [hread, ← toNat_relPc]
  by_cases hzero : g = 0#3
  · simp [hzero]
  · by_cases hnarrow : g.toNat < 4
    · simp only [hzero, hnarrow, if_true, if_false, BitVec.toNat_setWidth]
      omega
    · simp only [hzero, hnarrow, if_false]
      exact (Nat.mod_eq_of_lt hlt).symm

end

/-- Settles O26: the register is written in the set of the view in force when the instruction begins, before the conversion of the
target, which does not look at it. -/
theorem enterBJumpsComplete : Obligations.EnterBJumpsComplete := by
  unfold Obligations.EnterBJumpsComplete
  intro g i hmem b y s n d hdest
  have hn : OperandTaken s n := operandTaken_capture s
  have hrel : relativePc n = relativePc s := relativePc_capture _ s
  have hexec : exec (i b y) s = .next (loadPc d.base (afterConvert (bWritePhysical (bView s) g (relPc n) n))) :=
    exec_enterBJump (b := b) (y := y) hmem hdest
  obtain ⟨hother, hset⟩ := (bWritePhysical_frame (bView s) g (relPc n) n).2
  have hindex : SameIndex (bWritePhysical (bView s) g (relPc n) n)
      (loadPc d.base (afterConvert (bWritePhysical (bView s) g (relPc n) n))) := by simp [SameIndex]
  have hread := bSetOf_kept hindex (bView s)
  obtain ⟨⟨hindexN, ⟨hsel, -⟩, ⟨hrun, hlockout, -⟩, -⟩, -⟩ := id hn
  refine ⟨_, hexec, hn.jumpedTo (jumpsAs_bWritePhysical _ _ _ _) _, ?_, fun h hne => ?_, ?_, ?_, ?_, ?_⟩
  · rw [hread, toNat_read_bWritePhysical_relPc, hrel]
  · rw [hread, hother h hne, bSetOf_kept hindexN]
  · obtain ⟨hexecSet, hworkSet⟩ := hindex
    obtain ⟨hexecN, hworkN⟩ := hindexN
    cases hworker : (bView s).worker <;> rw [hworker] at hset
    · exact hworkSet.trans (hset.trans hworkN)
    · exact hexecSet.trans (hset.trans hexecN)
  · simp [bWritePhysical, hlockout]
  · simp [bWritePhysical, hsel]
  · simp [bWritePhysical, hrun]

end Sys2Proof.Machine
end

section
/-! 7737 (47_jump.md R412): the target is named in one step and run in the next, with P as it is. -/

namespace Sys2Proof.Machine

open Sys2Proof

section

variable {s : State} {b : BitVec 3} {y : BitVec 15} {a : Addr}

/-- 7737 names its target where it may jump there. -/
theorem exec_executeRemote
    (hdest : destAllowed (directTarget b y s) (afterConvert (capture s.pc s)) = true) :
    exec (.executeRemote b y) s = .next ((afterConvert (capture s.pc s)).setFetch
      (.remote (directTarget b y s).base)) := by
  have hallowed : ((directTarget b y s).checked &&
      readProtected (afterConvert (capture s.pc s)) &&
      !inside (afterConvert (capture s.pc s)) (directTarget b y s).base) = false := by
    simpa only [destAllowed, Bool.or_eq_true, Bool.not_eq_true', Bool.and_eq_false_iff, Bool.not_eq_false'] using hdest
  show execExecuteRemote b y s = _
  unfold directTarget at *
  simp only [execExecuteRemote, effective_capture, convert_snd, hallowed, Bool.false_eq_true, if_false]

/-- 7737 and 70 are the words that may not be a target. -/
theorem remoteAllowed_eq_false_iff (i : Instr) :
    remoteAllowed i = false ↔ (∃ b y, i = .executeRemote b y) ∨ (∃ j k b y, i = .repeatInstr j k b y) := by
  constructor
  · intro h
    unfold remoteAllowed at h
    split at h
    · exact .inl ⟨_, _, rfl⟩
    · exact .inr ⟨_, _, _, _, rfl⟩
    · exact absurd h (by decide)
  · rintro (⟨_, _, rfl⟩ | ⟨_, _, _, _, rfl⟩) <;> rfl

/-- The step of a running CPU that has a target to run. -/
theorem step_remote (hinputs : s.inputs = []) (hrun : s.run = true) (hfetch : s.fetch = .remote a) (hinstalled : installed s a = true)
    (hparity : wordBad s a = false) :
    step s = if remoteAllowed (decode (wordAt s a)) then runInstr (decode (wordAt s a)) s else .fault .remoteTargetNotAllowed := by
  simp only [step, hinputs, cycle, hrun, hfetch, runRemote, cpuRead_ok a s hinstalled hparity, Res.andThen_ok, Bool.not_true,
    Bool.false_eq_true, if_false]

/-- An instruction that has been fetched is executed, then finished. -/
theorem runInstr_outcome (i : Instr) (s : State) :
    (∀ u, exec i ((s.setFetch .program).setOverlap []) = .next u → runInstr i s = finish s.ctl.reinit u) ∧
      (∀ r, exec i ((s.setFetch .program).setOverlap []) = .fault r → runInstr i s = .fault r) ∧
      (∀ r, exec i ((s.setFetch .program).setOverlap []) = .refused r → runInstr i s = .refused r) := by
  refine ⟨fun u h => ?_, fun r h => ?_, fun r h => ?_⟩ <;> simp only [runInstr, h]

end

/-- Settles O27: 7737 changes the source of the next instruction; the step after it runs the word there. -/
theorem executeRemoteCompletes : Obligations.ExecuteRemoteCompletes := by
  unfold Obligations.ExecuteRemoteCompletes
  refine ⟨fun b y s => ?names, fun a s hinputs hrun hfetch hinstalled hparity => ?runs⟩
  case names =>
    intro n d hdest
    have hkept : Kept s (afterConvert n) := (capture_kept s.pc s).trans (afterConvert_kept n)
    obtain ⟨hindex, hio, ⟨hrun, hlockout, hpending, hrep, -, hentry, hinputs, hcfg⟩, hmem⟩ := hkept
    exact ⟨_, exec_executeRemote (b := b) (y := y) hdest, rfl, by simp, by simp, by simp, rfl, hindex, hio, hmem, hrun, hlockout, hpending,
      hrep, hentry, hinputs, hcfg⟩
  case runs =>
    intro i
    have hstep := step_remote hinputs hrun hfetch hinstalled hparity
    rw [← remoteAllowed_eq_false_iff]
    refine ⟨fun hstuck => ?stuck, fun hallowed => ?allowed⟩
    case stuck => exact hstep.trans (if_neg (by rw [hstuck]; decide))
    case allowed =>
      have hrunInstr : step s = runInstr i s := hstep.trans (if_pos (by simpa using hallowed))
      rw [hrunInstr]
      exact runInstr_outcome i s

end Sys2Proof.Machine
end

section
/-! Only 7761 leads out of the executive state (60_exceptions.md R572, 10_state.md R41): no update of an instruction, no special act but
that of 7761, and no other agent touches `NEW_IFR_PENDING` while the IFR is inactive and settled. -/

namespace Sys2Proof.Machine

open Sys2Proof

section

variable {s t u : State} {i : Instr}

/-! ## The executive state with nothing loaded -/

/-- The IFR is inactive, and no newly loaded one waits. -/
def Dormant (s : State) : Prop := s.ctl.ifrActive = false ∧ s.ctl.newIfr = .settled

/-- The IFR is inactive, and none takes effect at the next conversion. -/
def Inactive (s : State) : Prop := s.ctl.ifrActive = false ∧ s.ctl.newIfr ≠ .due

theorem Update.dormant (h : Update s t) (hs : Dormant s) : Dormant t := by
  cases h with
  | activate hdue =>
    obtain ⟨-, hsettled⟩ := hs
    exact absurd (hdue.symm.trans hsettled) nofun
  | _ => exact hs

theorem Update.inactive (h : Update s t) (hs : Inactive s) : Inactive t := by
  cases h with
  | activate hdue =>
    obtain ⟨-, hnotDue⟩ := hs
    exact absurd hdue hnotDue
  | _ => exact hs

theorem Routine.dormant (h : Routine s t) (hs : Dormant s) : Dormant t := chain_keeps Update.dormant h hs

theorem dormant_enter (x : Interrupt) (a : Option Addr) (s : State) : Dormant (enter x a s) := ⟨rfl, rfl⟩

theorem Ends.dormant (h : Ends s t) (hs : Dormant s) : Dormant t := by
  cases h with
  | done h => exact h.dormant hs
  | interrupted => exact dormant_enter _ _ _

theorem Ends.inactive (h : Ends s t) (hs : Inactive s) : Inactive t := by
  cases h with
  | done h => exact chain_keeps Update.inactive h hs
  | interrupted => exact ⟨rfl, nofun⟩

/-! ## Instructions -/

/-- The IFR is inactive, and a newly loaded one waits only if p holds. -/
def WaitsOnlyIf (p : Prop) (t : State) : Prop := t.ctl.ifrActive = false ∧ (t.ctl.newIfr ≠ .settled → p)

theorem Dormant.waitsOnlyIf (p : Prop) (h : Dormant s) : WaitsOnlyIf p s := ⟨h.1, fun hn => absurd h.2 hn⟩

theorem WaitsOnlyIf.imp {p q : Prop} (hpq : p → q) (h : WaitsOnlyIf p s) : WaitsOnlyIf q s := ⟨h.1, fun hn => hpq (h.2 hn)⟩

/-- An instruction is a 7761. -/
def LoadsIfr (i : Instr) : Prop := ∃ b y, i = .enterIfrRir b y

/-- Every special act but that of 7761 leaves the executive state as it is. -/
theorem Special.dormant (h : Special i s t) (hi : ¬ LoadsIfr i) (hs : Dormant s) : Dormant t := by
  cases h with
  | loadIfrRir b y => exact absurd ⟨b, y, rfl⟩ hi
  | setLockout => simpa only [Dormant, setLockout_ctl] using hs
  | _ => exact hs

theorem Special.inactive (h : Special i s t) (hs : Dormant s) : Inactive t := by
  have hinactive : Inactive s := ⟨hs.1, by simp [hs.2]⟩
  cases h with
  | loadIfrRir => exact ⟨hs.1, nofun⟩
  | setLockout => simpa only [Inactive, setLockout_ctl] using hinactive
  | _ => exact hinactive

/-- An instruction begun in the executive state puts no IFR into effect, and leaves one waiting only if it is a 7761. -/
theorem Runs.leaves (h : Runs i s t) (hs : Dormant s) : Inactive t ∧ (¬ LoadsIfr i → Dormant t) := by
  cases h with
  | plain e =>
    have ht := e.dormant hs
    exact ⟨⟨ht.1, by simp [ht.2]⟩, fun _ => ht⟩
  | special h a e =>
    have hu := h.dormant hs
    exact ⟨e.inactive (a.inactive hu), fun hi => e.dormant (a.dormant hi hu)⟩

theorem dormant_closeEntry (h : Dormant s) : Dormant (closeEntry s) := by
  unfold closeEntry
  split <;> exact h

theorem closeEntry_ifrActive (s : State) : (closeEntry s).ctl.ifrActive = s.ctl.ifrActive := by
  unfold closeEntry
  split <;> rfl

theorem settleIfr_inactive (h : Inactive s) : (settleIfr s).ctl.ifrActive = false := by
  obtain ⟨hinactive, hnotDue⟩ := h
  unfold settleIfr
  split
  · exact hinactive
  · exact hinactive
  · exact absurd ‹_› hnotDue

theorem settleIfr_of_settled (h : s.ctl.newIfr = .settled) : settleIfr s = s := by
  unfold settleIfr
  rw [h]

/-- The end of an instruction keeps what the instruction leaves. -/
theorem finish_waitsOnlyIf (r : Bool) (h : Inactive s ∧ (¬ LoadsIfr i → Dormant s)) :
    Yields (finish r s) (WaitsOnlyIf (LoadsIfr i)) := by
  obtain ⟨hinactive, hdormant⟩ := h
  have waits : ∀ {u}, u.ctl.ifrActive = false → (¬ LoadsIfr i → Dormant u) → WaitsOnlyIf (LoadsIfr i) u :=
    fun hu hd => ⟨hu, fun hn => Classical.byContradiction fun hi => hn (hd hi).2⟩
  refine .ite (fun _ => .next (waits hinactive.1 hdormant)) fun _ => .ite (fun _ => .fault _) fun _ => .next (waits ?_ fun hi => ?_)
  · rw [closeEntry_ifrActive, settleIfr_inactive hinactive]
  · have hd := hdormant hi
    rw [settleIfr_of_settled hd.2]
    exact dormant_closeEntry hd

theorem runInstr_waitsOnlyIf (i : Instr) (hs : Dormant s) : Yields (runInstr i s) (WaitsOnlyIf (LoadsIfr i)) := by
  unfold runInstr
  generalize ho : exec i _ = o
  cases o with
  | next v => exact finish_waitsOnlyIf _ ((exec_runs _ _ v ho).leaves hs)
  | fault r => exact .fault r
  | refused r => exact .refused r

/-- An instruction that may be repeated is no 7761. -/
theorem repeatOnce_dormant (hi : repeatFields i ≠ none) (b : BitVec 3) (y : BitVec 15) (hs : Dormant s) :
    Yields (repeatOnce i b y s) Dormant := by
  have hrep : ∀ {c : Bool} {r : RepeatState}, Dormant (if c then s.setRep r else s) :=
    (Routine.ite (.setRep .refl _) .refl : Routine s _).dormant hs
  have hnot : ¬ LoadsIfr i := by
    rintro ⟨b, y, rfl⟩
    exact hi rfl
  unfold repeatOnce
  refine .ite (fun _ => .next hrep) fun _ => ?_
  generalize ho : exec i _ = o
  cases o with
  | next v =>
    have hv : Dormant v := ((exec_runs _ _ v ho).leaves hrep).2 hnot
    exact .ite (fun _ => .next hv) fun _ => .next ((Routine.afterRepeated .refl _ b).dormant hv)
  | fault r => exact .fault r
  | refused r => exact .refused r

/-! ## The word a step runs -/

/-- A word that the next step of the CPU may run is a 7761. -/
def MayLoadIfr (s : State) : Prop := ∃ (w : Word) (b : BitVec 3) (y : BitVec 15), decode w = .enterIfrRir b y ∧ mayRun s w

theorem mayLoadIfr_of_mayRun {w : Word} (h : mayRun s w) : LoadsIfr (decode w) → MayLoadIfr s := by
  rintro ⟨b, y, hw⟩
  exact ⟨w, b, y, hw, h⟩

/-- What is done with a word read by the CPU is done with the word at the address, unless the read ends the instruction. -/
theorem cpuRead_yields {q : State → Prop} {a : Addr} {k : Word → State → Result} (hq : ∀ v, Ends s v → q v)
    (hk : Yields (k (wordAt s a) s) q) : Yields ((cpuRead a s).andThen k) q := by
  rcases cpuRead_cases a s with ⟨e, -, -⟩ | ⟨e, -⟩ | ⟨e, -⟩ <;> rw [e]
  · exact hk
  · exact (Routine.parityStop .refl a).imp hq
  · exact .fault _

/-- The word an instruction fetch sees is the word read, or what it held before the last instruction overwrote it (R133). -/
theorem fetchedWord_fst (a : Addr) (w : Word) (s : State) :
    (fetchedWord a w s).1 = w ∨ (s.overlap.find? fun c => c.1 == a).map Prod.snd = some (fetchedWord a w s).1 := by
  unfold fetchedWord
  split
  · rename_i old hfind
    split
    · exact .inl rfl
    · simp only []
      split
      · exact .inl rfl
      · exact .inr (by rw [hfind]; rfl)
  · exact .inl rfl

theorem dormant_fetchedWord (a : Addr) (w : Word) (hs : Dormant s) : Dormant (fetchedWord a w s).2 :=
  (Routine.fetchedWord .refl a w).dormant hs

/-- Where no repeated word is known the step may run the word fetched at P. -/
theorem mayRun_fetchedWord (hf : s.fetch = .program) (hrep : ¬ (s.rep.active = true ∧ s.rep.word.isSome = true))
    (ho : t.overlap = s.overlap) : mayRun s (fetchedWord s.pc (wordAt s s.pc) t).1 := by
  unfold mayRun
  rw [hf, ← ho]
  simp only [if_neg hrep]
  exact fetchedWord_fst s.pc _ t

theorem mayRun_repeated {w : Word} (hf : s.fetch = .program) (hrep : s.rep.active = true) (hw : s.rep.word = some w) : mayRun s w := by
  unfold mayRun
  rw [hf]
  simp [hrep, hw]

theorem runProgram_waitsOnlyIf (hs : Dormant s) (hf : s.fetch = .program) (hrep : s.rep.active = false) :
    Yields (runProgram s) (WaitsOnlyIf (MayLoadIfr s)) := by
  have hadvanced : Dormant (s.setPc (s.pc + 1)) := hs
  refine cpuRead_yields (fun v e => (e.dormant hadvanced).waitsOnlyIf _) ?_
  have hmay := mayRun_fetchedWord (t := s.setPc (s.pc + 1)) hf (by simp [hrep]) rfl
  have hfetched := dormant_fetchedWord s.pc (wordAt s s.pc) hadvanced
  exact (runInstr_waitsOnlyIf _ hfetched).imp fun _ => .imp (mayLoadIfr_of_mayRun hmay)

theorem runFixed_waitsOnlyIf {n : BitVec 15} (hs : Dormant s) (hf : s.fetch = .fixed n) :
    Yields (runFixed n s) (WaitsOnlyIf (MayLoadIfr s)) :=
  have hmay : mayRun s (wordAt s (fixedAddr s n)) := by simp only [mayRun, hf]
  cpuRead_yields (fun _ e => (e.dormant hs).waitsOnlyIf _) <|
    (runInstr_waitsOnlyIf _ hs).imp fun _ => .imp (mayLoadIfr_of_mayRun hmay)

theorem runRemote_waitsOnlyIf {a : Addr} (hs : Dormant s) (hf : s.fetch = .remote a) :
    Yields (runRemote a s) (WaitsOnlyIf (MayLoadIfr s)) :=
  have hmay : mayRun s (wordAt s a) := by simp only [mayRun, hf]
  cpuRead_yields (fun _ e => (e.dormant hs).waitsOnlyIf _) <|
    .ite (fun _ => (runInstr_waitsOnlyIf _ hs).imp fun _ => .imp (mayLoadIfr_of_mayRun hmay)) fun _ => .fault _

theorem runRepeat_waitsOnlyIf (hs : Dormant s) (hf : s.fetch = .program) (hrep : s.rep.active = true) :
    Yields (runRepeat s) (WaitsOnlyIf (MayLoadIfr s)) := by
  unfold runRepeat
  split
  case h_1 w hw =>
    split
    · rename_i hi
      exact (repeatOnce_dormant (hi ▸ Option.some_ne_none _) _ _ hs).imp fun _ => Dormant.waitsOnlyIf _
    · have hended : Dormant (s.setRep { s.rep with active := false }) := hs
      exact (runInstr_waitsOnlyIf _ hended).imp fun _ => .imp (mayLoadIfr_of_mayRun (mayRun_repeated hf hrep hw))
  case h_2 hw =>
    refine cpuRead_yields (fun v e => (e.dormant hs).waitsOnlyIf _) ?_
    have hmay := mayRun_fetchedWord (s := s) (t := s) hf (by simp [hw]) rfl
    have hfetched := dormant_fetchedWord s.pc (wordAt s s.pc) hs
    generalize fetchedWord s.pc (wordAt s s.pc) s = fetched at hmay hfetched ⊢
    have hready : ∀ r, Dormant ((fetched.2.setPc (fetched.2.pc + 1)).setRep r) := fun _ => hfetched
    simp only []
    split
    · rename_i hi
      exact (repeatOnce_dormant (hi ▸ Option.some_ne_none _) _ _ (hready _)).imp fun _ => Dormant.waitsOnlyIf _
    · exact (runInstr_waitsOnlyIf _ (hready _)).imp fun _ => .imp (mayLoadIfr_of_mayRun hmay)

/-! ## One step -/

theorem runNext_waitsOnlyIf (hs : Dormant s) (hf : s.fetch = .program) : Yields (runNext s) (WaitsOnlyIf (MayLoadIfr s)) :=
  .ite (fun hrep => runRepeat_waitsOnlyIf hs hf hrep) fun hrep => runProgram_waitsOnlyIf hs hf (by simpa using hrep)

/-- A step of the CPU begun in the executive state. -/
theorem cycle_waitsOnlyIf (defer : Bool) (hs : Dormant s) :
    Yields (cycle defer s) (WaitsOnlyIf (s.run = true ∧ MayLoadIfr s)) := by
  refine .ite (fun _ => .next (hs.waitsOnlyIf _)) fun hrun => ?_
  have running : ∀ v, WaitsOnlyIf (MayLoadIfr s) v → WaitsOnlyIf (s.run = true ∧ MayLoadIfr s) v :=
    fun _ => .imp fun h => ⟨by simpa using hrun, h⟩
  split
  case h_1 n hf => exact (runFixed_waitsOnlyIf hs hf).imp running
  case h_2 a hf => exact (runRemote_waitsOnlyIf hs hf).imp running
  case h_3 hf =>
    have hnext := (runNext_waitsOnlyIf hs hf).imp running
    refine .ite (fun _ => .next ((dormant_enter _ _ _).waitsOnlyIf _)) fun _ => ?_
    split
    · exact .ite (fun _ => hnext) fun _ => .next ((dormant_enter _ _ _).waitsOnlyIf _)
    · exact hnext

/-- No other agent touches the IFR, and master clear deactivates it. -/
theorem AgentUpdate.dormant (h : AgentUpdate s t) (hs : Dormant s) : Dormant t := by
  cases h with
  | masterClear => exact ⟨rfl, rfl⟩
  | request =>
    unfold Machine.request
    split <;> exact hs
  | elapse =>
    unfold Machine.elapse
    split <;> exact hs
  | store | setParity | setClk | setPanel | setRun | placeP | emit | putChan => exact hs

theorem step_waitsOnlyIf (hs : Dormant s) : Yields (step s) (WaitsOnlyIf (s.run = true ∧ MayLoadIfr s)) := by
  unfold step
  split
  · exact cycle_waitsOnlyIf false hs
  · rename_i rest _
    have hrest : Dormant (s.setInputs rest) := hs
    unfold handle
    split
    · exact cycle_waitsOnlyIf _ hrest
    · exact (respond_run _ _).imp fun _ (h : AgentRun _ _) => Dormant.waitsOnlyIf _ (chain_keeps AgentUpdate.dormant h hrest)

end

/-- Settles O59: the IFR waits after a step only where the instruction run is a 7761, and the word run is one of those that `mayRun`
names. -/
theorem executiveStateLeftOnlyBy7761 : Obligations.ExecutiveStateLeftOnlyBy7761 := by
  unfold Obligations.ExecutiveStateLeftOnlyBy7761
  intro s t hinactive hsettled hstep
  exact step_waitsOnlyIf ⟨hinactive, hsettled⟩ t hstep

end Sys2Proof.Machine
end

section
/-! Taking an interrupt (60_exceptions.md R523, R541, 10_state.md R49): outside a Repeat sequence, and inside one (48_sequence.md R440). -/

namespace Sys2Proof.Machine

open Sys2Proof

/-! ## The channel registers -/

/-- The number of a channel in a register of five bits. -/
theorem toNat_channelNumber (c : Fin 24) : (BitVec.ofNat 5 c.val).toNat = c.val := by
  rw [BitVec.toNat_ofNat]
  exact Nat.mod_eq_of_lt (by omega)

/-- An interrupt that puts its channel in IASR and in use (R49). -/
def PutsIasr (c : Fin 24) (x : Interrupt) : Prop :=
  ∀ sel, enterSelect x sel = { sel with iasr := BitVec.ofNat 5 c.val, useIasr := true, usePecsr := false }

/-- An interrupt that puts its channel in PECSR and in use (R49). -/
def PutsPecsr (c : Fin 24) (x : Interrupt) : Prop :=
  ∀ sel, enterSelect x sel = { sel with pecsr := BitVec.ofNat 5 c.val, useIasr := false, usePecsr := true }

/-- An interrupt of no channel (R49). -/
def PutsNone (x : Interrupt) : Prop := ∀ sel, enterSelect x sel = { sel with useIasr := false, usePecsr := false }

/-- Each interrupt's fixed location and what it does with the channel registers (R523, R49). -/
theorem location_select (cfg : Config) (x : Interrupt) :
    match x with
    | .uncond .illegalInstruction => x.location cfg = 0o0#15 ∧ PutsNone x
    | .uncond .programProtection => x.location cfg = 0o1#15 ∧ PutsNone x
    | .uncond .timeout => x.location cfg = 0o1#15 ∧ PutsNone x
    | .cond .powerLoss => x.location cfg = 0o2#15 ∧ PutsNone x
    | .uncond (.memoryParity bank) => [0o3#15, 0o4#15, 0o23#15, 0o27#15][bank.toNat]? = some (x.location cfg) ∧ PutsNone x
    | .cond (.bcwParity c) => x.location cfg = 0o5#15 ∧ PutsPecsr c x
    | .cond (.ioDataParity c) => x.location cfg = 0o6#15 ∧ PutsPecsr c x
    | .uncond .executiveReturn => x.location cfg = 0o7#15 ∧ PutsNone x
    | .uncond .fpUnderflow => x.location cfg = 0o10#15 ∧ PutsNone x
    | .uncond .fpOverflow => x.location cfg = 0o11#15 ∧ PutsNone x
    | .cond .sync0 => x.location cfg = 0o12#15 ∧ PutsNone x
    | .cond .sync1 => x.location cfg = 0o13#15 ∧ PutsNone x
    | .cond .realTimeClock => x.location cfg = 0o14#15 ∧ PutsNone x
    | .cond .dayClock => x.location cfg = 0o15#15 ∧ PutsNone x
    | .cond (.externalEsi c) => x.location cfg = 0o20#15 ∧ PutsIasr c x
    | .cond (.inputMonitorEsi c) => x.location cfg = 0o21#15 ∧ PutsIasr c x
    | .cond (.outputMonitorEsi c) => x.location cfg = 0o22#15 ∧ PutsIasr c x
    | .cond (.externalIsi c) => x.location cfg = 0o24#15 ∧ PutsIasr c x
    | .cond (.inputMonitorIsi c) => x.location cfg = 0o25#15 ∧ PutsIasr c x
    | .cond (.outputMonitorIsi c) => x.location cfg = 0o26#15 ∧ PutsIasr c x
    | .uncond .testAndSet => 0o30 ≤ (x.location cfg).toNat ∧ (x.location cfg).toNat ≤ 0o37 ∧ PutsNone x := by
  cases x with
  | cond x => cases x <;> exact ⟨rfl, fun _ => rfl⟩
  | uncond x =>
    cases x with
    | testAndSet =>
      have hvector := cfg.tasVector.isLt
      have hlocation : ((Interrupt.uncond .testAndSet).location cfg).toNat = 0o30 + cfg.tasVector.toNat := by
        simp only [Interrupt.location, UncondInt.location, BitVec.toNat_add, BitVec.toNat_setWidth, BitVec.toNat_ofNat]
        omega
      exact ⟨by omega, by omega, fun _ => rfl⟩
    | memoryParity bank =>
      refine ⟨?_, fun _ => rfl⟩
      have hbank : bank = 0#2 ∨ bank = 1#2 ∨ bank = 2#2 ∨ bank = 3#2 := by revert bank; decide
      rcases hbank with rfl | rfl | rfl | rfl <;> rfl
    | _ => exact ⟨rfl, fun _ => rfl⟩

/-- Settles O39: the frame of every entry, with the location and the channel registers of each interrupt. -/
theorem interruptEntry : Obligations.InterruptEntry := by
  unfold Obligations.InterruptEntry
  intro x a s hrep t onIasr onPecsr onNone
  obtain ⟨hentered, hifr, ha, hq, hmem, hpending, hsel⟩ := enter_frame x a s hrep
  have iasr : ∀ {c}, PutsIasr c x → onIasr c := fun h => by
    simp only [onIasr, t, hsel, h s.sel, toNat_channelNumber, and_self]
  have pecsr : ∀ {c}, PutsPecsr c x → onPecsr c := fun h => by
    simp only [onPecsr, t, hsel, h s.sel, toNat_channelNumber, and_self]
  have none : PutsNone x → onNone := fun h => hsel.trans (h s.sel)
  refine ⟨⟨x.location s.cfg, hentered, ?_⟩, hifr, ha, hq, hmem, hpending⟩
  have hx := location_select s.cfg x
  cases x with
  | cond x =>
    cases x with
    | bcwParity | ioDataParity => exact hx.imp id pecsr
    | externalEsi | inputMonitorEsi | outputMonitorEsi | externalIsi | inputMonitorIsi | outputMonitorIsi => exact hx.imp id iasr
    | powerLoss | dayClock | realTimeClock | sync0 | sync1 => exact hx.imp id none
  | uncond x =>
    cases x with
    | testAndSet => exact hx.imp id (.imp id none)
    | _ => exact hx.imp id none

/-! ## Inside a Repeat sequence -/

/-- The address that an interrupt inside a Repeat sequence leaves in f1 (R440). -/
def repeatedAddress (x : Interrupt) (a ybar : Addr) : Addr :=
  match x with
  | .cond _ => ybar
  | .uncond _ => a

/-- The IFR as an interrupt inside a Repeat sequence leaves it: f9, f2 and f1 are written unless it is held (R440, R541). -/
def repeatRecord (x : Interrupt) (a : Addr) (s : State) : Word :=
  if s.ctl.ifrHold then s.ctl.ifr
  else withF1 (withF2 (withF9 s.ctl.ifr true) s.rep.j) (repeatedAddress x a s.rep.ybar)

theorem enterRepeatIfr_eq (x : Interrupt) (a : Addr) {s : State} (hword : s.rep.word.isSome = true) :
    enterRepeatIfr x (some a) s =
      setIfr (withF1 (withF2 (withF9 s.ctl.ifr true) s.rep.j) (repeatedAddress x a s.rep.ybar)) s := by
  obtain ⟨w, hw⟩ := Option.isSome_iff_exists.mp hword
  unfold enterRepeatIfr
  rw [hw]
  cases x <;> rfl

theorem enterRecord_inRepeat (x : Interrupt) (a : Addr) {s : State} (hrep : s.rep.active = true) (hword : s.rep.word.isSome = true) :
    enterRecord x (some a) s = setIfr (repeatRecord x a s) (s.setPc (s.pc - 1)) := by
  unfold enterRecord repeatRecord
  simp only [hrep, hword, if_true]
  by_cases hhold : s.ctl.ifrHold = true
  · rw [if_pos hhold, if_pos hhold]
    rfl
  · rw [if_neg hhold, if_neg hhold]
    exact enterRepeatIfr_eq x a hword

/-- An interrupt inside a Repeat sequence leaves everything but P, the IFR and what every entry writes. -/
theorem enter_inRepeat (x : Interrupt) (a : Addr) {s : State} (hrep : s.rep.active = true) (hword : s.rep.word.isSome = true) :
    (enter x (some a) s).pc = s.pc - 1 ∧ (enter x (some a) s).ctl.ifr = repeatRecord x a s ∧ SameIndex s (enter x (some a) s) ∧
      (enter x (some a) s).a = s.a ∧ (enter x (some a) s).q = s.q ∧ SameMemory s (enter x (some a) s) := by
  unfold enter
  rw [enterRecord_inRepeat x a hrep hword]
  simp [SameIndex, SameMemory, wordAt, setIfr]

/-- Settles O40: the record of the sequence in the IFR, field by field. -/
theorem interruptInsideRepeat : Obligations.InterruptInsideRepeat := by
  unfold Obligations.InterruptInsideRepeat
  intro x a s hrep hword
  obtain ⟨hpc, hifr, hindex, ha, hq, hmem⟩ := enter_inRepeat x a hrep hword
  obtain ⟨hhold, hactive, -, -, -, hover, hlockout, hfetch, -⟩ := enter_modes x (some a) s
  generalize enter x (some a) s = t at *
  refine ⟨hpc, hover, hindex, ha, hq, hmem, hhold, hactive, by rw [hlockout], hfetch, fun hheld => ?held, fun hfree => ?written⟩
  case held => rw [hifr, repeatRecord, if_pos hheld]
  case written =>
    obtain ⟨hf9, hupper, hj, hbit, hf1⟩ := repeatRecord_fields s.ctl.ifr s.rep.j (repeatedAddress x a s.rep.ybar)
    rw [hifr, repeatRecord, if_neg (ne_true_of_eq_false hfree)]
    exact ⟨hf9, hj, by cases x <;> exact hf1, hupper, hbit⟩

end Sys2Proof.Machine
end

section
/-! Which interrupt is taken between two instructions (60_exceptions.md R532 to R535, R552). -/

namespace Sys2Proof.Machine

open Sys2Proof

section

variable {s : State}

/-! ## Rank and place -/

theorem channelPlace_lt (c : Fin 24) : channelPlace c < 24 := by
  unfold channelPlace
  split
  · omega
  · split <;> omega

theorem place_lt (x : CondInt) : x.place < 24 := by
  cases x with
  | powerLoss | dayClock | realTimeClock | sync0 | sync1 => exact Nat.zero_lt_succ 23
  | _ => exact channelPlace_lt _

/-- The key orders by rank first and by place among equal ranks. -/
theorem key_le_iff (x z : CondInt) : x.key ≤ z.key ↔ x.rank < z.rank ∨ (x.rank = z.rank ∧ x.place ≤ z.place) := by
  have hx := place_lt x
  have hz := place_lt z
  unfold CondInt.key
  omega

theorem place_of_channel {x : CondInt} {c : Fin 24} (h : x.channel = some c) : x.place = channelPlace c := by
  cases x with
  | powerLoss | dayClock | realTimeClock | sync0 | sync1 => cases h
  | _ => exact congrArg channelPlace (Option.some.inj h)

/-- The channels in the order of R535. -/
def channelOrder : List (Fin 24) := [15, 14, 13, 12, 11, 10, 9, 8, 23, 22, 21, 20, 19, 18, 17, 16, 7, 6, 5, 4, 3, 2, 1, 0]

theorem channelPlace_eq_idxOf (c : Fin 24) : channelPlace c = channelOrder.idxOf c := by revert c; decide

/-- Of a nonempty list of requests one of least key goes first. -/
theorem bestPending_least : ∀ {l : List CondInt}, l ≠ [] → ∃ x, bestPending l = some x ∧ ∀ z ∈ l, x.key ≤ z.key
  | [], h => absurd rfl h
  | [x], _ => ⟨x, rfl, by simp⟩
  | x :: y :: rest, _ => by
    obtain ⟨best, hbest, hleast⟩ := bestPending_least (List.cons_ne_nil y rest)
    unfold bestPending
    rw [hbest]
    by_cases h : x.key ≤ best.key
    · exact ⟨x, if_pos h, List.forall_mem_cons.mpr ⟨le_rfl, fun z hz => h.trans (hleast z hz)⟩⟩
    · exact ⟨best, if_neg h, List.forall_mem_cons.mpr ⟨(Nat.lt_of_not_le h).le, hleast⟩⟩

theorem dueInterrupt_bestPending {x : CondInt} (h : dueInterrupt s = some x) : bestPending s.pending = some x := by
  unfold dueInterrupt at h
  split at h
  · exact h
  · cases h

end

/-- Settles O18: the key is the rank of Table 2-2 before the channel's place, and neither search looks at the other's state. -/
theorem requestOfBestPriorityGoesFirst : Obligations.RequestOfBestPriorityGoesFirst := by
  unfold Obligations.RequestOfBestPriorityGoesFirst
  intro rank order
  have hrank : ∀ x, rank x = x.rank := fun x => by cases x <;> rfl
  refine ⟨fun l hl => ?_, fun s x h => dueInterrupt_bestPending h, fun s l => ?_, fun s v w => rfl⟩
  · obtain ⟨x, hx, hleast⟩ := bestPending_least hl
    refine ⟨x, hx, bestPending_mem hx, fun z hz => ?_⟩
    rw [hrank, hrank]
    refine ((key_le_iff x z).1 (hleast z hz)).imp id fun ⟨hsame, hplace⟩ => ⟨hsame, fun c d hc hd => ?_⟩
    rwa [place_of_channel hc, place_of_channel hd, channelPlace_eq_idxOf, channelPlace_eq_idxOf] at hplace
  · have hup : functionUp (s.setPending l) = functionUp s := by
      funext f
      cases f <;> rfl
    rw [hup]

/-! ## Taking the interrupt -/

section

variable {s n : State}

theorem OperandTaken.refl (s : State) : OperandTaken s s := ⟨Kept.refl s, rfl, rfl, rfl⟩

/-- An unconditional interrupt taken after an operand has been had, told of the state before it. -/
theorem raise_answers (x : UncondInt) (a : Option Addr) (hn : OperandTaken s n) (hc : ControlKept s n) (hrep : s.rep.active = false) :
    Answers (raise x a n) fun t =>
      EnteredFault (x.location s.cfg) s t ∧ IfrEntered n t ∧ SameMemory s t ∧ t.a = s.a ∧ t.q = s.q := by
  obtain ⟨hkept, ha, hq, hpc⟩ := hn
  obtain ⟨-, -, ⟨-, -, -, hrepN, -, -, -, hcfg⟩, hwords, hparity⟩ := id hkept
  obtain ⟨hentered, hifr, hta, htq, ⟨htwords, htparity⟩, hpending, hsel⟩ :=
    enter_frame (.uncond x) a n ((congrArg RepeatState.active hrepN).trans hrep)
  have hpcN : n.setPc s.pc = n := congrArg n.setPc hpc.symm
  refine ⟨_, rfl, enteredFault_congr hkept.keptButMemory hc s.pc ?_, hifr,
    ⟨fun w => (htwords w).trans (hwords w), htparity.trans hparity⟩, hta.trans ha, htq.trans hq⟩
  rw [hpcN, ← hcfg]
  refine ⟨hentered, ?_⟩
  rw [hsel, hpending]
  exact ⟨rfl, rfl, rfl, rfl, rfl⟩

/-- The step of a CPU with a request due. -/
theorem step_due {x : CondInt} (hin : s.inputs = []) (hrun : s.run = true) (hf : s.fetch = .program) (htime : timeoutDue s = false)
    (hdue : dueInterrupt s = some x) : step s = .next (enter (.cond x) none (s.setPending (s.pending.erase x))) := by
  simp only [step, hin, cycle, hrun, hf, htime, hdue, Bool.not_true, Bool.false_eq_true, if_false]

theorem step_timeout (hin : s.inputs = []) (hrun : s.run = true) (hf : s.fetch = .program) (htime : timeoutDue s = true) :
    step s = raise .timeout none s := by
  simp only [step, hin, cycle, hrun, hf, htime, Bool.not_true, Bool.false_eq_true, if_false, if_true]

end

/-- Settles O44: a request is due where neither lockout holds, and Timeout where SIL has held one too long. -/
theorem dueInterruptsAreTakenInOrder : Obligations.DueInterruptsAreTakenInOrder := by
  unfold Obligations.DueInterruptsAreTakenInOrder
  refine ⟨fun s hin hrun hf hrep hopen hnew hsome => ?_, fun s hin hrun hf hrep hguard hlocked hsil htimer => ?_, by decide⟩
  · obtain ⟨x, hx, hleast⟩ := bestPending_least hsome
    have hdue : dueInterrupt s = some x := by simpa [dueInterrupt, interruptible, hrun, hopen, hrep, hnew] using hx
    have htime : timeoutDue s = false := by simp [timeoutDue, hopen]
    obtain ⟨hentered, hifr, ha, hq, hmem, hpending, -⟩ := enter_frame (.cond x) none (s.setPending (s.pending.erase x)) hrep
    exact ⟨x, bestPending_mem hx, fun z hz => (key_le_iff x z).1 (hleast z hz), _, step_due hin hrun hf htime hdue, hentered,
      hpending, hifr, hmem, ha, hq⟩
  · have htime : timeoutDue s = true := by simp [timeoutDue, hguard, hlocked, hsil, htimer]
    rw [step_timeout hin hrun hf htime]
    exact raise_answers .timeout none (.refl s) (.of_ctl rfl) hrep

end Sys2Proof.Machine
end

section
/-! The instructions that end in an interrupt of their own: 7752, 7754, 00 and 7700 (48_sequence.md R445, R446, 30_encoding.md R170). -/

namespace Sys2Proof.Machine

open Sys2Proof

section

variable {s n t : State} {b : BitVec 3} {y : BitVec 15}

theorem operandTaken_noteStorage (b : BitVec 3) (y : BitVec 15) (s : State) : OperandTaken s (noteStorage b y s) :=
  ⟨noteStorage_kept b y s, noteStorage_a b y s, noteStorage_q b y s, noteStorage_pc b y s⟩

theorem operandTaken_noteData (b : BitVec 3) (y : BitVec 15) (s : State) : OperandTaken s (noteData b y s) :=
  ⟨capture_kept _ s, capture_a _ s, capture_q _ s, capture_pc _ s⟩

theorem capture_controlKept (v : Addr) (s : State) : ControlKept s (capture v s) := by
  simp only [ControlKept, capture_ctl]
  split <;> simp [withF1_high]

/-- 7752 sets the lower half where bit 14 of the word is 0. -/
theorem execTestAndSet_clear (hr : canRead (opAddr b y s) 0 s = true) (hbit : (wordAt s ((opAddr b y s).word 0)).getLsbD 14 = false)
    (hw : canWrite (opAddr b y s) 0 .lower s = true) :
    exec (.testAndSet b y) s = .next (storeWord ((opAddr b y s).word 0) .lower 0o77777#30 (noteStorage b y s)) := by
  show execTestAndSet b y s = _
  simp only [execTestAndSet, operandAddr_eq, if_true, readAt_noteStorage hr, Res.andThen_ok, operandWord, hbit, Bool.false_eq_true,
    if_false, writeAt_ok _ true 0 .lower _ id _ (canWrite_noteStorage hw)]

/-- 7752 takes the interrupt where bit 14 of the word is 1. -/
theorem execTestAndSet_set (hr : canRead (opAddr b y s) 0 s = true) (hbit : (wordAt s ((opAddr b y s).word 0)).getLsbD 14 = true) :
    exec (.testAndSet b y) s = raise .testAndSet none (noteStorage b y s) := by
  show execTestAndSet b y s = _
  simp only [execTestAndSet, operandAddr_eq, if_true, readAt_noteStorage hr, Res.andThen_ok, operandWord, hbit]

end

/-- Settles O31: the branch is on bit 14 of the word read; one ends in a store, the other in the entry. -/
theorem testAndSetCompletes : Obligations.TestAndSetCompletes := by
  unfold Obligations.TestAndSetCompletes
  intro b y s hr d
  refine ⟨fun hbit hw => ?clear, fun hbit hrep => ?set⟩
  case clear =>
    obtain ⟨t, ht, hword, hother, hparity, hctl, ha, hq, hpc, hkept⟩ :=
      storeWord_noteStorage_answers b y s (execTestAndSet_clear hr hbit hw)
    exact ⟨t, ht, hword, hother, hparity, ha, hq, hpc, hctl, hkept⟩
  case set =>
    rw [execTestAndSet_set hr hbit]
    exact raise_answers .testAndSet none (operandTaken_noteStorage b y s) (noteStorage_controlKept b y s) hrep

theorem withF1_low (w : Word) (v : Addr) : (withF1 w v).extractLsb' 0 17 = v := by
  apply BitVec.eq_of_getLsbD_eq
  intro i hi
  simp [withF1_getLsbD, hi]

/-- An entry leaves f1. -/
theorem IfrEntered.f1 {n t : State} (h : IfrEntered n t) : t.ctl.ifr.extractLsb' 0 17 = n.ctl.ifr.extractLsb' 0 17 := by
  obtain ⟨hbits, -⟩ := h
  apply BitVec.eq_of_getLsbD_eq
  intro i hi
  simp only [BitVec.getLsbD_extractLsb', Nat.zero_add, hbits i (by omega)]

/-- Settles O32: 7754 notes `ybar` before its entry, the two illegal codes note nothing. -/
theorem interruptingInstructionsEnter : Obligations.InterruptingInstructionsEnter := by
  unfold Obligations.InterruptingInstructionsEnter
  intro s hrep same
  have illegal : Answers (illegalCode s) fun t => EnteredFault 0#15 s t ∧ IfrEntered s t ∧ same t :=
    raise_answers .illegalInstruction none (.refl s) (.of_ctl rfl) hrep
  refine ⟨fun b y => ?_, fun _ _ _ _ => illegal, fun _ _ => illegal⟩
  obtain ⟨t, ht, hentered, hifr, hsame⟩ :=
    raise_answers .executiveReturn none (operandTaken_noteData b y s) (capture_controlKept _ s) hrep
  refine ⟨t, ht, hentered, hifr, hsame, fun hfree => ?_⟩
  rw [hifr.f1, noteData, capture_ctl, if_neg (ne_true_of_eq_false hfree)]
  exact withF1_low _ _

end Sys2Proof.Machine
end

section
/-! 70, 71 and 72 (48_sequence.md R431, R432, R442 to R444): the index register each names is that of the view chosen before the operand
is had (70_reset_and_hazards.md R620, U20). -/

namespace Sys2Proof.Machine

open Sys2Proof

section

variable {s n t : State} {j k b : BitVec 3} {y : BitVec 15}

/-! ## The view -/

/-- The view that 12, 70 and 71 name an index register in: the one in force or, directly after 7761, either of two (U20). -/
def operandView (k b : BitVec 3) (y : BitVec 15) (s : State) : BView :=
  (hazardView s).getD (bView (operandNote k b y (spendHazard s)))

/-- The view that 72 names an index register in. -/
def jumpView (k : BitVec 3) (s : State) : BView := (hazardView s).getD (bView (jumpNote k (spendHazard s)))

/-- The operand of 70 and 71, had after the view was chosen. -/
theorem readOperand_spendHazard (h : operandReadable k b y s = true) :
    readOperand true k b y (spendHazard s) = .ok (operandValue k b y s) (operandNote k b y (spendHazard s)) := by
  rw [readOperand_ok k b y _ (by rw [operandReadable_spendHazard, h]), operandValue_spendHazard]

theorem operandTaken_spendHazard (k b : BitVec 3) (y : BitVec 15) (s : State) : OperandTaken s (operandNote k b y (spendHazard s)) :=
  ⟨(spendHazard_kept s).trans (operandNote_kept k b y _), by simp, by simp, by simp⟩

theorem bReadIn_kept (h : SameIndex s t) (c : BView) (j : BitVec 3) : bReadIn c j t = bReadIn c j s := by
  unfold bReadIn
  rw [bSetOf_kept h]

/-- Of the index registers only B_j of the view's set may have changed. -/
def OtherIndexKept (c : BView) (j : BitVec 3) (s t : State) : Prop :=
  (∀ i, i ≠ j → (bSetOf c t).read i = (bSetOf c s).read i) ∧ if c.worker then t.bExec = s.bExec else t.bWork = s.bWork

theorem otherIndexKept_bWritePhysical (c : BView) (j : BitVec 3) (v : Addr) (h : SameIndex s t) :
    OtherIndexKept c j s (bWritePhysical c j v t) := by
  obtain ⟨-, hother, hset⟩ := bWritePhysical_frame c j v t
  refine ⟨fun i hi => (hother i hi).trans (by rw [bSetOf_kept h]), ?_⟩
  obtain ⟨hexec, hwork⟩ := h
  rwa [hexec, hwork] at hset

theorem otherIndexKept_bWriteIn (c : BView) (j : BitVec 3) (v : Addr) (h : SameIndex s t) :
    OtherIndexKept c j s (bWriteIn c j v t) :=
  otherIndexKept_bWritePhysical c j _ h

/-- t is s with an operand had, which left the control registers of n, and index registers written. -/
def IndexWritten (s n t : State) : Prop :=
  t.a = s.a ∧ t.q = s.q ∧ t.pc = s.pc ∧ t.ctl = n.ctl ∧ SameIo s t ∧ SameSystem s t ∧ SameMemory s t

theorem OperandTaken.indexWritten (h : OperandTaken s n) (c : BView) (j : BitVec 3) (v : Addr) :
    IndexWritten s n (bWritePhysical c j v n) := by
  obtain ⟨⟨-, hio, hsystem, hmemory⟩, ha, hq, hpc⟩ := h
  unfold IndexWritten
  simp only [bWritePhysical, putBSet_a, putBSet_q, putBSet_pc, putBSet_ctl, ha, hq, hpc, true_and]
  simpa [SameIo, SameSystem, SameMemory, wordAt] using And.intro hio (And.intro hsystem hmemory)

/-! ## 70 -/

/-- The count, as a number (R432). -/
theorem toNat_repeatCount (k : BitVec 3) (v : Word) :
    (repeatCount k v).toNat = v.toNat % 2 ^ (if k = 0#3 ∨ k = 3#3 ∨ k = 7#3 then 17 else 15) := by
  have hhalf : ((lowerHalf v).setWidth 17).toNat = v.toNat % 2 ^ 15 := by
    rw [lowerHalf, BitVec.toNat_setWidth, BitVec.extractLsb'_toNat, Nat.shiftRight_zero]
    omega
  rcases designator_cases k with rfl | rfl | rfl | rfl | rfl | rfl | rfl | rfl
  case inl | inr.inr.inr.inl | inr.inr.inr.inr.inr.inr.inr => exact BitVec.toNat_setWidth 17 v
  all_goals exact hhalf

/-- 70 writes B7 and skips, or starts the sequence. -/
theorem exec_repeatInstr (h : operandReadable k b y s = true) :
    let written := bWritePhysical (operandView k b y s) 7#3 (repeatCount k (operandValue k b y s)) (operandNote k b y (spendHazard s))
    exec (.repeatInstr j k b y) s =
      if repeatCount k (operandValue k b y s) = 0 then .next (written.setPc (written.pc + 1))
      else .next (written.setRep { written.rep with active := true, j := j, first := true, word := none }) := by
  show execRepeatInstr j k b y s = _
  rw [execRepeatInstr, readOperand_spendHazard h]
  rfl

end

/-- Settles O30: the write of B7 is the same in both branches, which differ in P and in the Repeat state. -/
theorem repeatCompletes : Obligations.RepeatCompletes := by
  unfold Obligations.RepeatCompletes
  intro j k b y s h n
  have hexec := exec_repeatInstr (j := j) h
  have hcount : (repeatCount k (operandValue k b y s)).toNat = n := toNat_repeatCount k _
  have hview := hazardView_operandNote k b y s
  have htaken := operandTaken_spendHazard k b y s
  generalize repeatCount k (operandValue k b y s) = count at hexec hcount
  obtain ⟨ha, hq, hpc, hctl, hio, ⟨hrun, hlockout, hpending, hrep, hfetch, -⟩, hmem⟩ :=
    htaken.indexWritten (operandView k b y s) 7#3 count
  have hothers := otherIndexKept_bWritePhysical (operandView k b y s) 7#3 count htaken.1.1
  obtain ⟨hread, -⟩ := bWritePhysical_frame (operandView k b y s) 7#3 count (operandNote k b y (spendHazard s))
  have hb7 := (congrArg BitVec.toNat hread).trans hcount
  have hzero : count = 0 ↔ n = 0 := by
    rw [← hcount]
    exact BitVec.toNat_inj (y := 0#17).symm
  by_cases hn : n = 0
  · exact ⟨_, hexec.trans (if_pos (hzero.2 hn)), ⟨_, hview, hb7, hothers⟩, fun _ => ⟨congrArg (· + 1) hpc, hrep⟩,
      fun hne => absurd hn hne, ha, hq, hctl, hio, hmem, hrun, hlockout, hpending, hfetch⟩
  · exact ⟨_, hexec.trans (if_neg (mt hzero.1 hn)), ⟨_, hview, hb7, hothers⟩, fun he => absurd he hn,
      fun _ => ⟨hpc, rfl, rfl, rfl, rfl⟩, ha, hq, hctl, hio, hmem, hrun, hlockout, hpending, hfetch⟩

/-! ## 71 -/

section

variable {s n t : State} {j k b : BitVec 3} {y : BitVec 15}

theorem toNat_lowerHalf (v : Word) : (lowerHalf v).toNat = v.toNat % 2 ^ 15 := by
  rw [lowerHalf, BitVec.extractLsb'_toNat, Nat.shiftRight_zero]

/-- 71's comparison of Y with the value of B_j (R443). -/
def Equals71 (k : BitVec 3) (v : Word) (bj w : Nat) : Prop :=
  if k = 1#3 ∨ k = 2#3 then v.toNat % 2 ^ 15 = bj
  else if k = 4#3 ∨ k = 5#3 ∨ k = 6#3 then v = (BitVec.ofNat 15 bj).signExtend 30
  else v.toNat % 2 ^ w = bj

theorem equal71_iff (k : BitVec 3) (v : Word) (bj : Addr) {w : Nat} (hw : w = 15 ∨ w = 17) :
    equal71 k v bj w = true ↔ Equals71 k v bj.toNat w := by
  have half : ((lowerHalf v).setWidth 17 == bj) = true ↔ v.toNat % 2 ^ 15 = bj.toNat := by
    rw [beq_iff_eq, ← BitVec.toNat_inj, BitVec.toNat_setWidth, toNat_lowerHalf, Nat.mod_eq_of_lt (by omega)]
  have extended : (v == sextHalf (bj.setWidth 15)) = true ↔ v = (BitVec.ofNat 15 bj.toNat).signExtend 30 := by
    rw [beq_iff_eq, BitVec.ofNat_toNat]
    rfl
  have whole : (cutTo w (v.setWidth 17) == bj) = true ↔ v.toNat % 2 ^ w = bj.toNat := by
    have hle : 2 ^ w ≤ 2 ^ 17 := by rcases hw with rfl | rfl <;> decide
    have hlt := Nat.mod_lt v.toNat (Nat.two_pow_pos w)
    rw [beq_iff_eq, cutTo_eq w v hw, ← BitVec.toNat_inj, BitVec.toNat_ofNat, Nat.mod_eq_of_lt (by omega)]
  rcases designator_cases k with rfl | rfl | rfl | rfl | rfl | rfl | rfl | rfl
  case inr.inl | inr.inr.inl => exact half
  case inr.inr.inr.inr.inl | inr.inr.inr.inr.inr.inl | inr.inr.inr.inr.inr.inr.inl => exact extended
  all_goals exact whole

/-- A value of B_j counted up at its width (D37). -/
theorem toNat_cutTo_succ {w : Nat} (hw : w = 15 ∨ w = 17) {v : Addr} (hv : v.toNat < 2 ^ w) :
    (cutTo w (v + 1)).toNat = (v.toNat + 1) % 2 ^ w := by
  rw [toNat_cutTo w _ hw, BitVec.toNat_add]
  rcases hw with rfl | rfl
  all_goals
    show (v.toNat + 1) % 2 ^ 17 % _ = _
    omega

/-- A value of B_j, not zero, counted down at its width. -/
theorem toNat_cutTo_pred {w : Nat} (hw : w = 15 ∨ w = 17) {v : Addr} (hv : v.toNat < 2 ^ w) (hne : v ≠ 0) :
    (cutTo w (v - 1)).toNat = v.toNat - 1 := by
  have hpos : v.toNat ≠ 0 := fun h => hne (BitVec.toNat_inj.mp h)
  have hle : 2 ^ w ≤ 2 ^ 17 := by rcases hw with rfl | rfl <;> decide
  have hone : (1 : Addr).toNat = 1 := rfl
  rw [toNat_cutTo w _ hw, BitVec.toNat_sub, hone, show 2 ^ 17 - 1 + v.toNat = v.toNat - 1 + 2 ^ 17 by omega, Nat.add_mod_right,
    Nat.mod_eq_of_lt (by omega : v.toNat - 1 < 2 ^ 17), Nat.mod_eq_of_lt (by omega)]

theorem exec_bSkip_zero (h : operandReadable k b y s = true) :
    exec (.bSkip 0#3 k b y) s = .next (skipIf (operandValue k b y s == 0) (operandNote k b y (spendHazard s))) := by
  show execBSkip 0#3 k b y s = _
  rw [execBSkip, readOperand_spendHazard h]
  rfl

/-- 71 with a register clears it and skips, or counts it up. -/
theorem exec_bSkip {c : BView} (hc : operandView k b y s = c) (hn : operandNote k b y (spendHazard s) = n) (hj : j ≠ 0#3)
    (h : operandReadable k b y s = true) :
    exec (.bSkip j k b y) s =
      if equal71 k (operandValue k b y s) (bReadIn c j n) (bWidth c j) then .next (skipIf true (bWriteIn c j 0 n))
      else .next (bWriteIn c j (bReadIn c j n + 1) n) := by
  subst hc hn
  show execBSkip j k b y s = _
  rw [execBSkip, readOperand_spendHazard h]
  exact if_neg hj

/-! ## 72 -/

theorem spendHazard_eq (s : State) : ∃ m, spendHazard s = s.setFree m := by
  unfold spendHazard
  split
  · exact ⟨_, rfl⟩
  · exact ⟨s.free, rfl⟩

theorem afterConvert_setFree (s : State) (m : Nat) : afterConvert (s.setFree m) = (afterConvert s).setFree m := by
  unfold afterConvert
  rw [State.setFree_ctl]
  split <;> rfl

theorem loadPc_setFree (a : Addr) (s : State) (m : Nat) : loadPc a (s.setFree m) = (loadPc a s).setFree m := by
  by_cases hreinit : s.ctl.reinit = true
  · have hs : loadPc a s = _ := if_pos hreinit
    rw [hs]
    exact (if_pos hreinit).trans rfl
  · have hs : loadPc a s = s.setPc a := if_neg hreinit
    rw [hs]
    exact if_neg hreinit

theorem jumpNote_setFree (k : BitVec 3) (s : State) (m : Nat) : jumpNote k (s.setFree m) = (jumpNote k s).setFree m := by
  unfold jumpNote
  rw [State.setFree_pc, capture_setFree, afterConvert_setFree]
  split <;> rfl

/-- The choice of a view does not enter a jump. -/
theorem jumpedTo_setFree (a : Addr) (n s t : State) (m : Nat) : JumpedTo a (n.setFree m) s t ↔ JumpedTo a n s t := by
  unfold JumpedTo
  rw [afterConvert_setFree, loadPc_setFree]
  rfl

theorem jumpsAs_bWriteIn (c : BView) (j : BitVec 3) (v : Addr) (n : State) : JumpsAs n (bWriteIn c j v n) :=
  jumpsAs_bWritePhysical c j _ n

theorem jumpOperand_spendHazard (h : operandReadable k b y s = true) :
    jumpOperand k b y (spendHazard s) = .ok (operandValue k b y s) (jumpNote k (spendHazard s)) := by
  rw [jumpOperand_ok k b y _ (by rw [operandReadable_spendHazard, h]), operandValue_spendHazard]

theorem exec_bJump {c : BView} (hc : jumpView k s = c) (hn : jumpNote k (spendHazard s) = n) (hj : j ≠ 0#3)
    (h : operandReadable k b y s = true) :
    exec (.bJump j k b y) s =
      if bReadIn c j n = 0 then .next n
      else jumpTo b (jumpRel k (operandValue k b y s) n) (eitherB c (bSetOf c n)) id (bWriteIn c j (bReadIn c j n - 1) n) := by
  subst hc hn
  show execBJump j k b y s = _
  rw [execBJump, if_neg hj, jumpOperand_spendHazard h]
  rfl

/-- The jump of 72 goes where a jump from before the choice of a view would go. -/
theorem jumpDest_setFree (k b : BitVec 3) (y : BitVec 15) (s : State) (m : Nat) :
    (convert b (jumpRel k (operandValue k b y s) ((jumpNote k s).setFree m)) ((jumpNote k s).setFree m)).1 = jumpDest k b y s := by
  rw [convert_congr (sameAddressing_setFree _ m)]
  rfl

/-- 72 jumps from a state that differs from the one its operand leaves in the counter of free values alone. -/
theorem jumpNote_spendHazard (k : BitVec 3) (s : State) : ∃ m, jumpNote k (spendHazard s) = (jumpNote k s).setFree m := by
  obtain ⟨m, hm⟩ := spendHazard_eq s
  exact ⟨m, by rw [hm, jumpNote_setFree]⟩

/-- The jump of 72, with B_j counted down before (R444). -/
theorem jumpTo_counted (c : BView) (v : Addr) (f : State → State) (m : Nat)
    (hdest : destAllowed (jumpDest k b y s) (afterConvert (jumpNote k s)) = true) :
    jumpTo b (jumpRel k (operandValue k b y s) ((jumpNote k s).setFree m)) f id (bWriteIn c j v ((jumpNote k s).setFree m)) =
      .next (loadPc (jumpDest k b y s).base (afterConvert (bWriteIn c j v ((jumpNote k s).setFree m)))) := by
  have hjump := jumpTo_jumps (b := b) (r := jumpRel k (operandValue k b y s) ((jumpNote k s).setFree m)) (f := f) (g := id)
    (jumpsAs_bWriteIn c j v ((jumpNote k s).setFree m))
  rw [jumpDest_setFree, afterConvert_setFree] at hjump
  exact hjump hdest

/-- A taken jump leaves the index registers as they were written before. -/
theorem sameIndex_loadPc (a : Addr) (u : State) : SameIndex u (loadPc a (afterConvert u)) := by simp [SameIndex]

end

/-- Settles O29: both work on B_j as the chosen view gives it, 71 at the end and 72 before its jump, which does not look at it. -/
theorem indexSkipAndJumpComplete : Obligations.IndexSkipAndJumpComplete := by
  unfold Obligations.IndexSkipAndJumpComplete
  intro j k b y s yv views others rest still equal
  have still_of : ∀ {n t}, IndexWritten s n t → still t := by
    rintro n t ⟨ha, hq, -, -, hio, hsystem, hmem⟩
    exact ⟨ha, hq, hio, hsystem, hmem⟩
  refine ⟨fun hj h => ?skip0, fun hj h => ?skip, fun hj => ?jump0, fun hj h hallowed => ?jump⟩
  case skip0 =>
    subst hj
    obtain ⟨hkept, ha, hq, hpc⟩ := operandTaken_spendHazard k b y s
    obtain ⟨hindex, hio, hsystem, hmem⟩ := skipIf_kept (yv == 0) hkept
    refine ⟨_, exec_bSkip_zero h, ?_, hindex, skipIf_ctl _ _, (skipIf_a _ _).trans ha, (skipIf_q _ _).trans hq, hio, hsystem, hmem⟩
    rw [skipIf_pc, pcAfter, pcAfter, hpc]
    simp [yv]
  case skip =>
    obtain ⟨c, hc⟩ : ∃ c, operandView k b y s = c := ⟨_, rfl⟩
    have hview : views c := hc ▸ hazardView_operandNote k b y s
    have htaken := operandTaken_spendHazard k b y s
    generalize hn : operandNote k b y (spendHazard s) = n at htaken ⊢
    have hindex : SameIndex s n := htaken.1.1
    have hexec := exec_bSkip hc hn hj h
    rw [bReadIn_kept hindex] at hexec
    have hequal : equal71 k yv (bReadIn c j s) (bWidth c j) = true ↔ equal c := equal71_iff k yv _ (bWidth_cases c j)
    by_cases he : equal c
    · obtain ⟨hcleared, -⟩ := bWriteIn_frame c j 0 n hj
      have hwritten : IndexWritten s n (bWriteIn c j 0 n) := htaken.indexWritten c j _
      obtain ⟨-, -, hpc, hctl, -⟩ := id hwritten
      refine ⟨_, hexec.trans (if_pos (hequal.2 he)), c, hview, fun _ => ⟨?_, congrArg (· + 1) hpc⟩, fun hne => absurd he hne,
        otherIndexKept_bWriteIn c j 0 hindex, hctl, (still_of hwritten :)⟩
      exact hcleared.trans (by unfold cutTo; split <;> rfl)
    · obtain ⟨hcounted, -⟩ := bWriteIn_frame c j (bReadIn c j s + 1) n hj
      have hwritten : IndexWritten s n (bWriteIn c j (bReadIn c j s + 1) n) := htaken.indexWritten c j _
      obtain ⟨-, -, hpc, hctl, -⟩ := id hwritten
      refine ⟨_, hexec.trans (if_neg (mt hequal.1 he)), c, hview, fun h => absurd h he, fun _ => ⟨?_, hpc⟩,
        otherIndexKept_bWriteIn c j _ hindex, hctl, still_of hwritten⟩
      rw [hcounted, toNat_cutTo_succ (bWidth_cases c j) (bReadIn_lt c j s)]
  case jump0 =>
    subst hj
    obtain ⟨⟨hindex, hio, hsystem, hmem⟩, ha, hq, hpc⟩ := operandTaken_capture s
    exact ⟨_, rfl, hpc, hindex, rfl, ha, hq, hio, hsystem, hmem⟩
  case jump =>
    obtain ⟨c, hc⟩ : ∃ c, jumpView k s = c := ⟨_, rfl⟩
    have hview : views c := hc ▸ hazardView_jumpNote k s
    obtain ⟨m, hm⟩ := jumpNote_spendHazard k s
    have hn : OperandTaken s ((jumpNote k s).setFree m) := operandTaken_jumpNote k s
    obtain ⟨⟨hindex, hio, hsystem, hmem⟩, ha, hq, hpc⟩ := id hn
    have hexec := exec_bJump hc hm hj h
    rw [bReadIn_kept hindex] at hexec
    by_cases hzero : bReadIn c j s = 0
    · exact ⟨_, hexec.trans (if_pos hzero), c, hview, fun _ => ⟨hpc, hindex, rfl, ha, hq, hio, hsystem, hmem⟩,
        fun hne => absurd hzero hne⟩
    · have hjumped := (jumpedTo_setFree _ _ _ _ m).1 (hn.jumpedTo (jumpsAs_bWriteIn c j (bReadIn c j s - 1) _) (jumpDest k b y s).base)
      obtain ⟨hcounted, -⟩ := bWriteIn_frame c j (bReadIn c j s - 1) ((jumpNote k s).setFree m) hj
      have hothers := otherIndexKept_bWriteIn c j (bReadIn c j s - 1) hindex
      obtain ⟨-, -, -, -, hioU, ⟨hrun, hlockout, -⟩, -⟩ :
        IndexWritten s _ (bWriteIn c j (bReadIn c j s - 1) ((jumpNote k s).setFree m)) := hn.indexWritten c j _
      have hjump := jumpTo_counted (j := j) c (bReadIn c j s - 1) (eitherB c (bSetOf c ((jumpNote k s).setFree m))) m
        (hallowed ⟨c, hview, hzero⟩)
      refine ⟨_, hexec.trans ((if_neg hzero).trans hjump), c, hview, fun he => absurd he hzero, fun _ => ?_⟩
      generalize bWriteIn c j (bReadIn c j s - 1) ((jumpNote k s).setFree m) = u at *
      have hsame := sameIndex_loadPc (jumpDest k b y s).base u
      refine ⟨hjumped, ?_, ?_, ?_⟩
      · rw [bReadIn_kept hsame, hcounted, toNat_cutTo_pred (bWidth_cases c j) (bReadIn_lt c j s) hzero]
      · obtain ⟨hother, hset⟩ := hothers
        refine ⟨fun i hi => by rw [bSetOf_kept hsame, hother i hi], ?_⟩
        obtain ⟨hexecSet, hworkSet⟩ := hsame
        rw [hexecSet, hworkSet]
        exact hset
      · obtain ⟨-, -, -, ha', hq', hmem', -⟩ := hjumped
        exact ⟨by simpa [SameIo] using hioU, hmem', ha', hq', by simpa using hrun, by simpa using hlockout⟩

end Sys2Proof.Machine
end

section
/-! 62 and 63 (49_io.md R463, R464): a jump where the channel in use is active. -/

namespace Sys2Proof.Machine

open Sys2Proof

section

variable {s : State} {kh : BitVec 2} {b : BitVec 3} {y : BitVec 15} {c : Fin 24}

/-- The state after a channel jump's operand has been had: f1 holds P. -/
def channelNote (kh : BitVec 2) (s : State) : State := if kh = 0#2 then capture s.pc s else afterConvert (capture s.pc s)

/-- The relative target of a channel jump (R463). -/
def channelTarget (kh : BitVec 2) (b : BitVec 3) (y : BitVec 15) (s : State) : Addr :=
  if kh = 0#2 then effective b y s
  else if kh = 2#2 then (upperHalf (operandWord b y 0 s)).setWidth 17 else (lowerHalf (operandWord b y 0 s)).setWidth 17

theorem operandTaken_channelNote (kh : BitVec 2) (s : State) : OperandTaken s (channelNote kh s) := by
  obtain ⟨hkept, ha, hq, hpc⟩ := operandTaken_capture s
  unfold channelNote
  split
  · exact ⟨hkept, ha, hq, hpc⟩
  · exact ⟨hkept.trans (afterConvert_kept _), (afterConvert_a _).trans ha, (afterConvert_q _).trans hq, (afterConvert_pc _).trans hpc⟩

/-- A storage operand read by a jump, which notes P and not its address. -/
theorem readAt_capturePc (h : canRead (opAddr b y s) 0 s = true) :
    readAt (opAddr b y (capture s.pc s)) false 0 (afterConvert (capture s.pc s)) =
      .ok (operandWord b y 0 s) (afterConvert (capture s.pc s)) := by
  have hread : canRead (opAddr b y (capture s.pc s)) 0 (capture s.pc s) = true := by rw [canRead_capture, opAddr_capture, h]
  have hnoted : canRead (opAddr b y (capture s.pc s)) 0 (afterConvert (capture s.pc s)) = true := canRead_noted b y 0 false _ hread
  rw [readAt_ok _ false 0 _ hnoted, opAddr_capture]
  simp [operandWord, wordAt]

theorem channelJumpOperand_ok (h : kh = 0#2 ∨ canRead (opAddr b y s) 0 s = true) :
    channelJumpOperand kh b y s = .ok (channelTarget kh b y s) (channelNote kh s) := by
  have hkh : kh = 0#2 ∨ kh = 1#2 ∨ kh = 2#2 ∨ kh = 3#2 := by clear h; revert kh; decide
  rcases hkh with rfl | hkh
  · simp only [channelJumpOperand, dataOperand, effective_capture]
    rfl
  · have hne : kh ≠ 0#2 := by rintro rfl; exact absurd hkh (by decide)
    have hread := readAt_capturePc (h.resolve_left hne)
    rcases hkh with rfl | rfl | rfl <;>
      (simp only [channelJumpOperand, operandAddr_eq, Bool.false_eq_true, if_false, hread, Res.bind_ok]; rfl)

/-- An instruction finds the fitted channel it names. -/
theorem withChannel_ok {n : BitVec 5} (h : channelOf s.cfg n = some c) : withChannel n s = .ok c s := by
  unfold withChannel
  rw [h]

theorem plainJHat_zero (k : Result) : plainJHat 0#4 k = k := rfl

/-- 62 and 63 jump, or leave the note of their operand. -/
theorem jumpActive_eq (active : Channel → Bool) (hu : Unguarded s) (hc : channelOf s.cfg (chanNow s) = some c)
    (h : kh = 0#2 ∨ canRead (opAddr b y s) 0 s = true) :
    jumpActive active 0#4 kh b y s =
      if active (chan s c) then jumpTo b (channelTarget kh b y s) id id (channelNote kh s) else .next (channelNote kh s) := by
  obtain ⟨⟨-, ⟨hsel, hchans, -⟩, ⟨-, -, -, -, -, -, -, hcfg⟩, -⟩, -⟩ := operandTaken_channelNote kh s
  have hcN : channelOf (channelNote kh s).cfg (chanNow (channelNote kh s)) = some c := by rw [hcfg, chanNow, hsel]; exact hc
  have hchan : chan (channelNote kh s) c = chan s c := by rw [chan, hchans]; rfl
  rw [jumpActive, privileged_unguarded hu, plainJHat_zero, channelJumpOperand_ok h, Res.andThen_ok, withChannel_ok hcN, Res.andThen_ok,
    hchan]

end

/-- Settles O28: both are one meaning, with another flag of the channel. -/
theorem channelJumpsComplete : Obligations.ChannelJumpsComplete := by
  unfold Obligations.ChannelJumpsComplete
  intro kh b y s c hu hc h n w target d rest form
  have hn : OperandTaken s n := operandTaken_channelNote kh s
  obtain ⟨hkept, ha, hq, hpc⟩ := id hn
  have jumps : ∀ (i : Instr) (active : Channel → Bool), exec i s = jumpActive active 0#4 kh b y s → form i (active (chan s c)) := by
    intro i active hi
    have hexec := hi.trans (jumpActive_eq active hu hc h)
    refine ⟨fun hidle => ?idle, fun hactive hdest => ?jumps⟩
    case idle => exact ⟨n, hexec.trans (if_neg (ne_true_of_eq_false hidle)), hpc, rfl, ha, hq, hkept⟩
    case jumps =>
      have hjump := jumpTo_jumps (f := id) (g := id) (JumpsAs.refl n) hdest
      obtain ⟨⟨hexecSet, hworkSet⟩, ⟨hsel, hchans, hclk, hout, hpanel⟩, ⟨hrun, hlockout, -⟩, -⟩ := hkept
      exact ⟨_, hexec.trans ((if_pos hactive).trans hjump), hn.jumpedTo_loadPc d.base,
        ⟨by simp [hexecSet], by simp [hworkSet]⟩, by simp [SameIo, hsel, hchans, hclk, hout, hpanel], by simp [hrun],
        by simp [hlockout]⟩
  exact ⟨jumps _ Channel.inActive rfl, jumps _ Channel.outActive rfl⟩

end Sys2Proof.Machine
end

section
/-! 13, 17, 7770, 7772 and 7773, and the rise of EI (49_io.md R461, R462, R467 to R469, R488). -/

namespace Sys2Proof.Machine

open Sys2Proof

section

variable {s n u t : State} {r : Result} {b : BitVec 3} {y : BitVec 15} {c : Fin 24}

/-! ## Signals -/

/-- t is s with an operand had, which left the control registers of n, but for the channels, the channel registers and the signals. -/
def IoWritten (s n t : State) : Prop :=
  t.a = s.a ∧ t.q = s.q ∧ t.pc = s.pc ∧ t.ctl = n.ctl ∧ SameIndex s t ∧ SameSystem s t ∧ SameMemory s t

theorem OperandTaken.ioWritten (h : OperandTaken s n) : IoWritten s n n := by
  obtain ⟨⟨hindex, -, hsystem, hmem⟩, ha, hq, hpc⟩ := h
  exact ⟨ha, hq, hpc, rfl, hindex, hsystem, hmem⟩

/-- Two signals, each sent on a condition. -/
theorem ite_emit_emit (p p' : Bool) (x x' : Signal) (s : State) :
    (if p' then emit x' (if p then emit x s else s) else if p then emit x s else s) =
      s.setOutputs ((if p' then [x'] else []) ++ (if p then [x] else []) ++ s.outputs) := by
  cases p <;> cases p' <;> rfl

/-- An instruction that only sends signals. -/
theorem signals_answers (hn : OperandTaken s n) (l : List Signal) (h : r = .next (n.setOutputs (l ++ s.outputs))) :
    Answers r fun t => t.outputs = l ++ s.outputs ∧ t.chans = s.chans ∧ t.sel = s.sel ∧ IoWritten s n t := by
  obtain ⟨⟨-, ⟨hsel, hchans, -⟩, -⟩, -⟩ := id hn
  exact ⟨_, h, rfl, hchans, hsel, hn.ioWritten⟩

theorem execSendExternalFunction_word (hu : Unguarded s) (hc : channelOf s.cfg (chanNow s) = some c)
    (hr : canRead (opAddr b y s) 0 s = true) :
    exec (.sendExternalFunction 0#4 3#2 b y) s =
      .next ((noteStorage b y s).setOutputs ([.externalFunction c (operandWord b y 0 s)] ++ s.outputs)) := by
  have hcN : channelOf (noteStorage b y s).cfg (chanNow (noteStorage b y s)) = some c := by
    rw [noteStorage_cfg, chanNow, noteStorage_sel]
    exact hc
  obtain ⟨⟨-, ⟨-, -, -, hout, -⟩, -⟩, -⟩ := operandTaken_noteStorage b y s
  show execSendExternalFunction 0#4 3#2 b y s = _
  rw [execSendExternalFunction, privileged_unguarded hu, plainJHat_zero, readWord_ok b y s hr, Res.andThen_ok, withChannel_ok hcN,
    Res.andThen_ok, ← hout]
  rfl

theorem execSendExternalFunction_audio (hu : Unguarded s) :
    exec (.sendExternalFunction 0#4 0#2 b y) s = .next ((noteData b y s).setOutputs
      (((if (effective b y s).getLsbD 3 then [Signal.audioDisable] else []) ++
        (if (effective b y s).getLsbD 2 then [Signal.audioEnable] else [])) ++ s.outputs)) := by
  obtain ⟨⟨-, ⟨-, -, -, hout, -⟩, -⟩, -⟩ := operandTaken_noteData b y s
  show execSendExternalFunction 0#4 0#2 b y s = _
  rw [execSendExternalFunction, privileged_unguarded hu, plainJHat_zero, ← hout, ← ite_emit_emit]
  rfl

theorem execInitiateSyncInterrupt_eq (hu : Unguarded s) :
    exec (.initiateSyncInterrupt b y) s = .next ((noteData b y s).setOutputs
      (((if (effective b y s).getLsbD 1 ∧ s.cfg.syncOut[1] = true then [Signal.sync1] else []) ++
        (if (effective b y s).getLsbD (if s.cfg.sync0AtBit0 then 0 else 10) ∧ s.cfg.syncOut[0] = true then [Signal.sync0] else [])) ++
          s.outputs)) := by
  obtain ⟨⟨-, ⟨-, -, -, hout, -⟩, ⟨-, -, -, -, -, -, -, hcfg⟩, -⟩, -⟩ := operandTaken_noteData b y s
  simp only [← Bool.and_eq_true]
  show execInitiateSyncInterrupt b y s = _
  rw [execInitiateSyncInterrupt, privileged_unguarded hu, ← hout, ← ite_emit_emit, ← hcfg]
  rfl

/-! ## Words of the channel registers -/

theorem execEnterCsr_eq (hu : Unguarded s) (hr : canRead (opAddr b y s) 0 s = true) :
    exec (.enterCsr b y) s =
      .next ((noteStorage b y s).setSel { s.sel with csr := (operandWord b y 0 s).extractLsb' 0 5 }) := by
  show execEnterCsr b y s = _
  rw [execEnterCsr, privileged_unguarded hu, readWord_ok b y s hr, Res.andThen_ok, noteStorage_sel]

theorem execStoreChannelNumber_eq (hu : Unguarded s) (hw : canWrite (opAddr b y s) 0 .whole s = true) :
    exec (.storeChannelNumber b y) s =
      .next (storeWord ((opAddr b y s).word 0) .whole ((chanNo s).setWidth 30) (noteStorage b y s)) := by
  show execStoreChannelNumber b y s = _
  rw [execStoreChannelNumber, privileged_unguarded hu, storeWhole_ok b y _ s hw, Res.andThen_ok]

/-- The channel number that 7772 stores (R467, D38). -/
theorem toNat_chanNo (s : State) : ((chanNo s).setWidth 30).toNat =
    if s.sel.useIasr then s.sel.iasr.toNat else if s.sel.usePecsr then s.sel.pecsr.toNat else 0o37 := by
  have hlt := (chanNo s).isLt
  rw [BitVec.toNat_setWidth, Nat.mod_eq_of_lt (by omega), chanNo]
  cases s.sel.useIasr <;> cases s.sel.usePecsr <;> rfl

/-- 17 stores the input lines of channel IASR and acknowledges (R462). -/
theorem execStoreChannel_eq (hu : Unguarded s) (hc : channelOf s.cfg s.sel.iasr = some c)
    (hw : canWrite (opAddr b y s) 0 .whole s = true) :
    exec (.storeChannel 0#4 3#2 b y) s = .next (acknowledgeEi c
      (storeWord ((opAddr b y s).word 0) .whole (chan s c).inLines (noteStorage b y s))) := by
  show execStoreChannel 0#4 3#2 b y s = _
  rw [execStoreChannel, privileged_unguarded hu, plainJHat_zero]
  simp only [withChannel_ok hc, storeWhole_ok b y _ s hw, Res.andThen_ok]

/-- What the acknowledge of EI leaves of the channels and the signals. -/
theorem acknowledgeEi_io (c : Fin 24) (t : State) :
    (acknowledgeEi c t).outputs = .inputAck c :: t.outputs ∧ (acknowledgeEi c t).chans[c] = { t.chans[c] with ei := false } ∧
      ∀ e, e ≠ c → (acknowledgeEi c t).chans[e] = t.chans[e] :=
  ⟨rfl, chan_putChan c _ t, fun _ he => chan_putChan_ne he _ t⟩

/-! ## Requests -/

/-- A request is pending, and every other one is as before. -/
def Requested (x : CondInt) (s t : State) : Prop := x ∈ t.pending ∧ ∀ z, z ≠ x → (z ∈ t.pending ↔ z ∈ s.pending)

theorem requested_request (x : CondInt) (h : u.pending = s.pending) : Requested x s (request x u) := by
  refine ⟨(mem_request x x u).2 (.inl rfl), fun z hz => ?_⟩
  rw [mem_request, or_iff_right hz, h]

/-- EI rises on a channel (R488). -/
theorem step_eiUp {rest : List Event} (hin : s.inputs = Event.eiUp c :: rest) : step s = .next (externalUp c (s.setInputs rest)) := by
  unfold step
  rw [hin]
  rfl

/-- The request of a channel whose EI rises (R488). -/
def externalRequest (mode : ChannelMode) (c : Fin 24) : CondInt :=
  match mode with
  | .isi => .externalIsi c
  | .esi => .externalEsi c

theorem externalUp_rises (h : fitted s.cfg c = true ∧ (s.chans[c]).ei = false) :
    externalUp c s = request (externalRequest (channelMode s c) c) (putChan c { chan s c with ei := true } s) := by
  obtain ⟨hfitted, hdown⟩ := h
  have hcond : (fitted s.cfg c && !(chan s c).ei) = true := by rw [hfitted, chan, hdown]; rfl
  exact if_pos hcond

theorem externalUp_stays (h : ¬ (fitted s.cfg c = true ∧ (s.chans[c]).ei = false)) : externalUp c s = s := by
  have hstays : ¬ (fitted s.cfg c = true ∧ (chan s c).ei = false) := h
  have hcond : ¬ (fitted s.cfg c && !(chan s c).ei) = true := by simpa only [Bool.and_eq_true, Bool.not_eq_true'] using hstays
  exact if_neg hcond

end

/-- Settles O34: each instruction is one write after the note of its operand, and EI one write of its channel with a request. -/
theorem channelWordsAndSignalsComplete : Obligations.ChannelWordsAndSignalsComplete := by
  unfold Obligations.ChannelWordsAndSignalsComplete
  refine ⟨fun b y s hu => ⟨fun c hc hr => ?word, ?audio, fun kh hkh => ?none13, fun c hc hw => ?status, fun kh hkh => ?none17⟩,
    fun b y s hu => ⟨fun hr => ?csr, fun hw => ?number, ?sync⟩, fun c s rest hin => ?rise⟩
  case word =>
    obtain ⟨t, ht, hout, hchans, hsel, hio⟩ := signals_answers (operandTaken_noteStorage b y s) _ (execSendExternalFunction_word hu hc hr)
    exact ⟨t, ht, hout, hchans, hsel, hio⟩
  case audio =>
    obtain ⟨t, ht, hout, hchans, hsel, hio⟩ := signals_answers (operandTaken_noteData b y s) _ (execSendExternalFunction_audio hu)
    exact ⟨t, ht, hout, hchans, hsel, hio⟩
  case none13 =>
    rcases hkh with rfl | rfl
    all_goals
      show Answers (privileged s (noOperation b y s)) _
      rw [privileged_unguarded hu]
      exact noOperation_answers b y s
  case none17 =>
    have hkh' : kh = 0#2 ∨ kh = 1#2 ∨ kh = 2#2 := by revert kh; decide
    rcases hkh' with rfl | rfl | rfl
    all_goals
      show Answers (privileged s (noOperation b y s)) _
      rw [privileged_unguarded hu]
      exact noOperation_answers b y s
  case status =>
    intro d
    obtain ⟨u, hstored, hword, hother, hparity, hctl, ha, hq, hpc, hindex, ⟨hsel, hchans, -, hout, -⟩, hsystem⟩ :=
      storeWord_noteStorage_answers b y s (r := .next (storeWord d .whole (chan s c).inLines (noteStorage b y s))) (p := .whole) rfl
    have hexec := execStoreChannel_eq hu hc hw
    rw [Host.Outcome.next.inj hstored] at hexec
    obtain ⟨hack, hdown, hothers⟩ := acknowledgeEi_io c u
    rw [hout] at hack
    rw [hchans] at hdown
    refine ⟨_, hexec, hword, hother, hparity, hack, hdown, fun e he => ?_, hsel, ha, hq, hpc, hctl, hindex, hsystem⟩
    rw [hothers e he, hchans]
  case csr =>
    obtain ⟨⟨-, ⟨-, hchans, -, hout, -⟩, -⟩, -⟩ := id (operandTaken_noteStorage b y s)
    exact ⟨_, execEnterCsr_eq hu hr, rfl, hchans, hout, (operandTaken_noteStorage b y s).ioWritten⟩
  case number =>
    obtain ⟨t, ht, hword, hother, hparity, hctl, ha, hq, hpc, hkept⟩ :=
      storeWord_noteStorage_answers b y s (execStoreChannelNumber_eq hu hw)
    exact ⟨t, ht, (congrArg BitVec.toNat hword).trans (toNat_chanNo s), hother, hparity, ha, hq, hpc, hctl, hkept⟩
  case sync =>
    obtain ⟨t, ht, hout, hchans, hsel, hio⟩ := signals_answers (operandTaken_noteData b y s) _ (execInitiateSyncInterrupt_eq hu)
    exact ⟨t, ht, hout, hsel, hchans, hio⟩
  case rise =>
    intro asked rises
    refine ⟨_, step_eiUp hin, ?_⟩
    by_cases h : rises
    · rw [externalUp_rises (s := s.setInputs rest) h]
      obtain ⟨hasked, hpending⟩ := requested_request (s := s) asked
        (u := putChan c { chan (s.setInputs rest) c with ei := true } (s.setInputs rest)) rfl
      refine ⟨fun _ => ⟨?_, fun e he => ?_, hasked, hpending⟩, fun hn => absurd h hn, ?_⟩
      all_goals rw [request_eq]
      · exact chan_putChan c _ (s.setInputs rest)
      · exact chan_putChan_ne he _ (s.setInputs rest)
      · rfl
    · rw [externalUp_stays (s := s.setInputs rest) h]
      exact ⟨fun hr => absurd hr h, fun _ => ⟨rfl, rfl⟩, rfl⟩

end Sys2Proof.Machine
end

section
/-! Master clear (70_reset_and_hazards.md R600, R601) and the clock agents (60_exceptions.md R580, R583, R584). -/

namespace Sys2Proof.Machine

open Sys2Proof

/-! ## Master clear -/

/-- The machine after reset has no channel flag set. -/
theorem reset_chan (c : Fin 24) : State.reset.chans[c] = Channel.idle := by simp [State.reset]

/-- Settles O57: the storage is empty, nothing is pending and no register or entrance is active. -/
theorem resetIsMasterCleared : Obligations.ResetIsMasterCleared := by
  unfold Obligations.ResetIsMasterCleared
  have hstorage : StorageInv State.reset := ⟨reset_mem_wf, fun c hc => absurd hc List.not_mem_nil⟩
  have hchannel : ChannelInv State.reset := by
    refine ⟨List.nodup_nil, fun x hx => absurd hx List.not_mem_nil, fun c _ => ?_, nofun, nofun⟩
    rw [chan, reset_chan]
    exact ⟨rfl, rfl⟩
  have hentry : EntryInv State.reset := ⟨fun _ => rfl, nofun⟩
  refine ⟨rfl, rfl, rfl, rfl, rfl, rfl, rfl, rfl, rfl, rfl, rfl, fun c => ?_, hstorage, hchannel, hentry⟩
  rw [reset_chan]
  exact ⟨rfl, rfl, rfl, rfl, rfl, rfl⟩

/-- Master clear clears the flags of every channel. -/
theorem masterClear_chan (s : State) (c : Fin 24) : (masterClear s).chans[c] = clearChannel s.chans[c] := by
  simp [masterClear]

/-- Master clear as the next event of the script (log 49). -/
theorem step_masterClear {s : State} {rest : List Event} (h : s.inputs = .masterClear :: rest) :
    step s = .next (if s.run then s.setInputs rest else masterClear (s.setInputs rest)) := by
  unfold step
  rw [h]
  rfl

/-- Settles O58: the event does nothing on a running CPU and is master clear on a stopped one. -/
theorem masterClearResets : Obligations.MasterClearResets := by
  unfold Obligations.MasterClearResets
  intro s rest hin
  refine ⟨fun hrun => ?runs, fun hrun => ?stopped⟩
  case runs => rw [step_masterClear hin, if_pos hrun]
  case stopped =>
    refine ⟨_, (step_masterClear hin).trans (congrArg _ (if_neg (ne_true_of_eq_false hrun))), rfl, rfl, rfl, rfl, rfl, rfl, rfl, rfl, rfl,
      rfl, rfl, fun c => ?_, ⟨fun _ => rfl, rfl⟩, rfl, rfl, rfl, rfl⟩
    rw [masterClear_chan]
    exact ⟨rfl, rfl, rfl, rfl, rfl, rfl⟩

/-! ## The clocks -/

section

variable {s : State}

/-- A whole word written by another agent. -/
theorem agentStore_whole (a : Addr) (v : Word) (s : State) :
    wordAt (agentStore a .whole v s) a = v ∧ MemoryKeptBut [a] s (agentStore a .whole v s) := by
  refine ⟨?_, fun x hx => ?_⟩
  · rw [wordAt_agentStore, if_pos rfl]
    rfl
  · rw [wordAt_agentStore, if_neg fun h => hx (List.mem_singleton.2 h.symm)]

/-- What a clock update leaves unchanged: every register, the channels and the signals. -/
def ClockKept (s t : State) : Prop :=
  t.a = s.a ∧ t.q = s.q ∧ t.pc = s.pc ∧ t.ctl = s.ctl ∧ SameIndex s t ∧ t.sel = s.sel ∧ t.chans = s.chans ∧ t.lockout = s.lockout ∧
    t.rep = s.rep ∧ t.outputs = s.outputs

theorem clockKept_agentStore (a : Addr) (v : Word) (w : Clocks) (s : State) :
    ClockKept s ((agentStore a .whole v s).setClk w) := by
  simp [ClockKept, SameIndex, agentStore, dropOverlap]

theorem clockKept_request {u : State} (x : CondInt) (h : ClockKept s u) : ClockKept s (request x u) := by
  rw [request_eq]
  simpa [ClockKept, SameIndex] using h

theorem wordAt_request (x : CondInt) (u : State) (a : Addr) : wordAt (request x u) a = wordAt u a :=
  congrArg (fun m : Memory => m.get a.toNat) (request_mem x u)

/-- The day clock word holds the data bits above eight zeros (R580). -/
theorem toNat_dayClockWord (d : BitVec 22) : (d ++ 0#8).toNat = d.toNat * 2 ^ 8 := by
  rw [BitVec.toNat_append, BitVec.toNat_zero, Nat.or_zero, Nat.shiftLeft_eq]

/-- The count of the real-time clock word (R583). -/
def rtcCount (w : Word) : BitVec 18 := w.extractLsb' 0 18

theorem toNat_rtcCount (w : Word) : (rtcCount w).toNat = w.toNat % 2 ^ 18 := by
  simp [rtcCount]

theorem toNat_rtcWord (c : BitVec 18) : ((c + 1).setWidth 30).toNat = (c.toNat + 1) % 2 ^ 18 := by
  bv_omega

/-- The count recycles iff all its bits are ones (R584). -/
theorem rtcCount_eq_allOnes_iff (w : Word) : rtcCount w = BitVec.allOnes 18 ↔ w.toNat % 2 ^ 18 = 2 ^ 18 - 1 := by
  rw [← toNat_rtcCount, ← BitVec.toNat_inj, BitVec.toNat_allOnes]

/-- The day clock word written, the request answered. -/
def dayClockWritten (d : BitVec 22) (s : State) : State :=
  (agentStore (fixedAddr s 0o16#15) .whole (d ++ 0#8) s).setClk { s.clk with dayData := none }

theorem dayClockUpdate_eq (d : BitVec 22) (h : installed s (fixedAddr s 0o16#15) = true) :
    dayClockUpdate d s = .next (dayClockWritten d s) :=
  if_pos h

/-- The real-time clock word counted up, the tick used. -/
def rtcCounted (s : State) : State :=
  (agentStore (fixedAddr s 0o17#15) .whole ((rtcCount (wordAt s (fixedAddr s 0o17#15)) + 1).setWidth 30) s).setClk
    { s.clk with rtcTicks := s.clk.rtcTicks - 1 }

theorem rtcCounted_pending (s : State) : (rtcCounted s).pending = s.pending := by simp [rtcCounted, agentStore, dropOverlap]

theorem rtcUpdate_eq (h : installed s (fixedAddr s 0o17#15) = true) :
    rtcUpdate s = .next (if rtcCount (wordAt s (fixedAddr s 0o17#15)) = BitVec.allOnes 18 then request .realTimeClock (rtcCounted s)
      else rtcCounted s) := by
  unfold rtcUpdate
  exact if_pos h

end

/-- Settles O49: each is one word written by another agent, with the request where the count recycles. -/
theorem clockUpdates : Obligations.ClockUpdates := by
  unfold Obligations.ClockUpdates
  intro s day rtc rest
  refine ⟨fun d h => ?day, fun h => ?rtc⟩
  case day =>
    obtain ⟨hword, hother⟩ := agentStore_whole day (d ++ 0#8) s
    have hdata : (wordAt (dayClockWritten d s) day).toNat = d.toNat * 2 ^ 8 := by
      rw [← toNat_dayClockWord]
      exact congrArg BitVec.toNat hword
    exact ⟨_, dayClockUpdate_eq d h, hdata, hother, rfl, clockKept_agentStore _ _ _ s⟩
  case rtc =>
    obtain ⟨hword, hother⟩ := agentStore_whole rtc ((rtcCount (wordAt s rtc) + 1).setWidth 30) s
    have hcount : (wordAt (rtcCounted s) rtc).toNat = ((wordAt s rtc).toNat % 2 ^ 18 + 1) % 2 ^ 18 := by
      rw [← toNat_rtcCount, ← toNat_rtcWord]
      exact congrArg BitVec.toNat hword
    have hrest : ClockKept s (rtcCounted s) := clockKept_agentStore _ _ _ s
    have hupdate := rtcUpdate_eq h
    by_cases hall : rtcCount (wordAt s rtc) = BitVec.allOnes 18
    · have hones := (rtcCount_eq_allOnes_iff _).1 hall
      obtain ⟨hasked, hpending⟩ := requested_request (s := s) (u := rtcCounted s) .realTimeClock (rtcCounted_pending s)
      refine ⟨_, hupdate.trans (congrArg _ (if_pos hall)), (congrArg _ (wordAt_request _ _ rtc)).trans hcount, fun x hx => ?_,
        fun hn => absurd hones hn, fun _ => ⟨hasked, hpending⟩, clockKept_request _ hrest⟩
      exact (wordAt_request _ _ x).trans (hother x hx)
    · have hnot : ¬ (wordAt s rtc).toNat % 2 ^ 18 = 2 ^ 18 - 1 := fun hones => hall ((rtcCount_eq_allOnes_iff _).2 hones)
      exact ⟨_, hupdate.trans (congrArg _ (if_neg hall)), hcount, hother, fun _ => rtcCounted_pending s, fun hones => absurd hones hnot, hrest⟩

end Sys2Proof.Machine
end

section
/-! 73 to 76, 66 and 67 (49_io.md R465, R466, R471 to R475). -/

namespace Sys2Proof.Machine

open Sys2Proof

section

variable {s t u : State} {kh : BitVec 2} {n : BitVec 15} {b : BitVec 3} {y : BitVec 15} {c : Fin 24} {jh : BitVec 4} {w : Word} {r : Addr}

/-- The part of the BCW that k names (R475). -/
def bcwPart (kh : BitVec 2) : Part := if kh = 1#2 then .lower else if kh = 2#2 then .upper else .whole

/-- The BCR's word after the load of w by k, and the rest of storage (R475). -/
def BcwLoaded (kh : BitVec 2) (w : Word) (r : Addr) (s t : State) : Prop :=
  (kh = 0#2 → SameMemory s t) ∧ (kh = 1#2 → wordAt t r = upperHalf (wordAt s r) ++ lowerHalf w) ∧
    (kh = 2#2 → wordAt t r = upperHalf w ++ lowerHalf (wordAt s r)) ∧ (kh = 3#2 → wordAt t r = w) ∧
    (kh ≠ 0#2 → ParityStored r (bcwPart kh) s t) ∧ MemoryKeptBut [r] s t

/-- Everything but storage and f1 is as before. -/
def RegistersKept (s t : State) : Prop := t.a = s.a ∧ t.q = s.q ∧ t.pc = s.pc ∧ ControlKept s t ∧ KeptButMemory s t

/-- A store after the note of an operand. -/
theorem storeWord_noted (d : Addr) (p : Part) (v : Word) (b : BitVec 3) (y : BitVec 15) (s : State) :
    wordAt (storeWord d p v (noteStorage b y s)) d = mergePart p (wordAt s d) v ∧
      MemoryKeptBut [d] s (storeWord d p v (noteStorage b y s)) ∧ ParityStored d p s (storeWord d p v (noteStorage b y s)) ∧
      RegistersKept s (storeWord d p v (noteStorage b y s)) := by
  obtain ⟨u, hu, hword, hother, hparity, hctl, ha, hq, hpc, hkept⟩ :=
    storeWord_noteStorage_answers b y s (r := .next (storeWord d p v (noteStorage b y s))) rfl
  rw [Host.Outcome.next.inj hu]
  have hcontrol : ControlKept s u := by
    have hnoted := noteStorage_controlKept b y s
    unfold ControlKept at hnoted ⊢
    rwa [hctl]
  exact ⟨hword, hother, hparity, ha, hq, hpc, hcontrol, hkept⟩

/-- The unprotected write of a part of a fixed location after the note of an operand. -/
theorem cpuWrite_fixed {p : Part} (v : Word) (hi : installed s (fixedAddr s n) = true) (hp : testReadBad s (fixedAddr s n) p = false) :
    cpuWrite (fixedAddr (noteStorage b y s) n) p v (noteStorage b y s) = .ok () (storeWord (fixedAddr s n) p v (noteStorage b y s)) := by
  have hfixed : fixedAddr (noteStorage b y s) n = fixedAddr s n := by rw [fixedAddr, noteStorage_panel]; rfl
  rw [hfixed]
  refine cpuWrite_ok _ _ _ _ ?_ ?_
  · rwa [installed, noteStorage_cfg]
  · have hkept : testReadBad (noteStorage b y s) (fixedAddr s n) p = testReadBad s (fixedAddr s n) p := by
      cases p <;> simp only [testReadBad, halfBad, noteStorage_parity]
    exact hkept.trans hp

/-- k = 0 loads nothing (R475). -/
theorem bcwLoaded_none (h : SameMemory s t) : BcwLoaded 0#2 w r s t := by
  obtain ⟨hword, -⟩ := id h
  exact ⟨fun _ => h, nofun, nofun, nofun, fun hne => absurd rfl hne, fun x _ => hword x⟩

/-- The word that the load of w by k stores the part of. -/
theorem bcwLoaded_part (hkh : kh ≠ 0#2) (v : Word) (hv : v = if kh = 2#2 then (upperHalf w).setWidth 30 else w)
    (hword : wordAt t r = mergePart (bcwPart kh) (wordAt s r) v) (hparity : ParityStored r (bcwPart kh) s t)
    (hother : MemoryKeptBut [r] s t) : BcwLoaded kh w r s t := by
  refine ⟨fun h => absurd h hkh, ?lower, ?upper, ?whole, fun _ => hparity, hother⟩
  case lower => rintro rfl; exact hword.trans (congrArg _ hv)
  case upper =>
    rintro rfl
    rw [hword, hv, if_pos rfl]
    exact congrArg (fun x : Half => (x ++ lowerHalf (wordAt s r) : BitVec 30)) (lowerHalf_setWidth (upperHalf w))
  case whole => rintro rfl; exact hword.trans hv

theorem loadBcw_part (hkh : kh ≠ 0#2) (hr : canRead (opAddr b y s) 0 s = true) (hi : installed s (fixedAddr s n) = true)
    (hp : testReadBad s (fixedAddr s n) (bcwPart kh) = false) :
    loadBcw kh n b y s = .ok () (storeWord (fixedAddr s n) (bcwPart kh)
      (if kh = 2#2 then (upperHalf (operandWord b y 0 s)).setWidth 30 else operandWord b y 0 s) (noteStorage b y s)) := by
  have hcases : kh = 1#2 ∨ kh = 2#2 ∨ kh = 3#2 := by clear hp; revert kh; decide
  rcases hcases with rfl | rfl | rfl
  all_goals
    simp only [loadBcw, readWord_ok b y s hr, Res.bind_ok]
    exact cpuWrite_fixed _ hi hp

/-- The load of a channel's BCW by k (R475). -/
theorem loadBcw_loads (h : kh = 0#2 ∨ (canRead (opAddr b y s) 0 s = true ∧ installed s (fixedAddr s n) = true ∧
      testReadBad s (fixedAddr s n) (bcwPart kh) = false)) :
    ∃ u, loadBcw kh n b y s = .ok () u ∧ BcwLoaded kh (operandWord b y 0 s) (fixedAddr s n) s u ∧ RegistersKept s u := by
  by_cases hkh : kh = 0#2
  · subst hkh
    obtain ⟨⟨hindex, hio, hsystem, hmem⟩, ha, hq, hpc, hctl⟩ := captureUnused_frame b y s
    exact ⟨_, rfl, bcwLoaded_none hmem, ha, hq, hpc, hctl, hindex, hio, hsystem⟩
  · obtain ⟨hr, hi, hp⟩ := h.resolve_left hkh
    obtain ⟨hword, hother, hparity, hkept⟩ := storeWord_noted (fixedAddr s n) (bcwPart kh)
      (if kh = 2#2 then (upperHalf (operandWord b y 0 s)).setWidth 30 else operandWord b y 0 s) b y s
    exact ⟨_, loadBcw_part hkh hr hi hp, bcwLoaded_part hkh _ rfl hword hparity hother, hkept⟩

/-- What is written of a channel leaves all else. -/
theorem putChan_io (c : Fin 24) (v : Channel) (u : State) :
    (putChan c v u).chans[c] = v ∧ ∀ e, e ≠ c → (putChan c v u).chans[e] = u.chans[e] :=
  ⟨chan_putChan c v u, fun _ he => chan_putChan_ne he v u⟩

/-- 73 and 75 outside guard mode. -/
theorem activateIn_eq (monitor : Bool) (hu : Unguarded s) (hc : channelOf s.cfg (chanNow s) = some c)
    (hload : loadBcw kh (inputBcr c) b y s = .ok () u) :
    activateIn monitor kh b y s = .next (putChan c { chan u c with inActive := true, inMon := monitor } u) := by
  rw [activateIn, privileged_unguarded hu, withChannel_ok hc, Res.andThen_ok, hload, Res.andThen_ok]

/-- 74 and 76 outside guard mode. -/
theorem activateOut_eq (monitor : Bool) (hu : Unguarded s) (hc : channelOf s.cfg (chanNow s) = some c)
    (hload : loadBcw kh (outputBcr c) b y s = .ok () u) :
    activateOut monitor jh kh b y s =
      .next (putChan c { chan u c with outActive := true, outMon := monitor, efActive := jh.getLsbD 0, outDone := false } u) := by
  rw [activateOut, privileged_unguarded hu, withChannel_ok hc, Res.andThen_ok, hload, Res.andThen_ok]

/-- After an unused operand the channel in use is the same. -/
theorem withChannel_captureUnused (hc : channelOf s.cfg (chanNow s) = some c) :
    withChannel (chanNow (captureUnused b y s)) (captureUnused b y s) = .ok c (captureUnused b y s) := by
  refine withChannel_ok ?_
  rw [captureUnused_cfg, chanNow, captureUnused_sel]
  exact hc

theorem chan_captureUnused : chan (captureUnused b y s) c = s.chans[c] := by rw [chan, captureUnused_chans]

theorem execTerminateInput_eq (hu : Unguarded s) (hc : channelOf s.cfg (chanNow s) = some c) :
    exec (.terminateInput 0#4 0#2 b y) s =
      .next (putChan c { s.chans[c] with inActive := false, inMon := false } (captureUnused b y s)) := by
  show execTerminateInput 0#4 0#2 b y s = _
  rw [execTerminateInput, privileged_unguarded hu, plainJHat_zero, if_pos rfl]
  simp only [withChannel_captureUnused hc, Res.andThen_ok, chan_captureUnused]

theorem execTerminateOutput_eq (hkh : kh ≠ 3#2) (hu : Unguarded s) (hc : channelOf s.cfg (chanNow s) = some c) :
    exec (.terminateOutput 0#4 kh b y) s = .next (putChan c
      { s.chans[c] with outActive := false, outMon := false, efActive := false, outDone := false } (captureUnused b y s)) := by
  show execTerminateOutput 0#4 kh b y s = _
  rw [execTerminateOutput, privileged_unguarded hu, plainJHat_zero]
  simp only [if_neg hkh, withChannel_captureUnused hc, Res.andThen_ok, chan_captureUnused]

theorem execTerminateOutput_none (hu : Unguarded s) : exec (.terminateOutput 0#4 3#2 b y) s = .next (captureUnused b y s) := by
  show execTerminateOutput 0#4 3#2 b y s = _
  rw [execTerminateOutput, privileged_unguarded hu, plainJHat_zero]
  exact if_pos rfl

end

/-- Settles O35: an activation is the load of the BCW and one write of the channel, a termination the write alone. -/
theorem buffersActivateAndTerminate : Obligations.BuffersActivateAndTerminate := by
  unfold Obligations.BuffersActivateAndTerminate
  constructor
  case left =>
    intro jh kh b y s c hu hc part w form
    have activates : ∀ (i : Instr) (n : Nat) (after : Channel → Channel),
        (∀ u, loadBcw kh (BitVec.ofNat 15 (n + c.val)) b y s = .ok () u → exec i s = .next (putChan c (after (chan u c)) u)) →
          form i n after := by
      intro i n after hexec h
      obtain ⟨u, hload, ⟨hnone, hlower, hupper, hwhole, hparity, hother⟩, ha, hq, hpc, hctl, hindex, ⟨hsel, hchans, -, hout, -⟩,
        hsystem⟩ := loadBcw_loads (n := BitVec.ofNat 15 (n + c.val)) h
      obtain ⟨hchan, hothers⟩ := putChan_io c (after (chan u c)) u
      have hsame : chan u c = s.chans[c] := by rw [chan, hchans]
      refine ⟨_, hexec u hload, hchan.trans (congrArg after hsame), fun e he => ?_, hnone, hlower, hupper, hwhole, hparity, hother,
        ha, hq, hpc, hctl, hindex, hsystem, hsel, hout⟩
      rw [hothers e he, hchans]
    clear_value form
    refine ⟨activates _ _ _ ?_, activates _ _ _ ?_, activates _ _ _ ?_, activates _ _ _ ?_⟩
    · exact fun u => activateIn_eq false hu hc
    · exact fun u => activateIn_eq true hu hc
    · exact fun u => activateOut_eq false hu hc
    · exact fun u => activateOut_eq true hu hc
  case right =>
    intro b y s hu rest
    obtain ⟨⟨hindex, ⟨hsel, hchans, -, hout, -⟩, hsystem, hmem⟩, ha, hq, hpc, hctl⟩ := captureUnused_frame b y s
    have hrest : rest (captureUnused b y s) := ⟨ha, hq, hpc, hctl, hindex, hsystem, hmem, hsel, hout⟩
    have terminates : ∀ (c : Fin 24) (v : Channel), rest (putChan c v (captureUnused b y s)) ∧
        (putChan c v (captureUnused b y s)).chans[c] = v ∧ ∀ e, e ≠ c → (putChan c v (captureUnused b y s)).chans[e] = s.chans[e] := by
      intro c v
      obtain ⟨hchan, hothers⟩ := putChan_io c v (captureUnused b y s)
      exact ⟨hrest, hchan, fun e he => by rw [hothers e he, hchans]⟩
    exact ⟨fun c hc => ⟨⟨_, execTerminateInput_eq hu hc, terminates c _⟩,
      fun kh hkh => ⟨_, execTerminateOutput_eq hkh hu hc, terminates c _⟩⟩,
      _, execTerminateOutput_none hu, hrest, hchans⟩

end Sys2Proof.Machine
end

section
/-! One execution of a repeated instruction (48_sequence.md R433, R436, R439). -/

namespace Sys2Proof.Machine

open Sys2Proof

section

variable {s t u : State} {p : Addr} {b : BitVec 3} {y : BitVec 15} {i : Instr} {w : Word}

/-- B7 counted down (R439). -/
def countedDown (u : State) : State := bWritePhysical (bView u) 7#3 (repeatCountLeft u - 1) u

theorem countedDown_eq (u : State) : ∃ e w, countedDown u = (u.setBExec e).setBWork w := by
  unfold countedDown bWritePhysical putBSet
  split
  · exact ⟨u.bExec, _, rfl⟩
  · exact ⟨(bSetOf (bView u) u).write 7#3 (repeatCountLeft u - 1), u.bWork, rfl⟩

theorem repeatCountLeft_countedDown (u : State) : (bSetOf (bView u) (countedDown u)).b7 = repeatCountLeft u - 1 := by
  rw [countedDown, bWritePhysical, bSetOf_putBSet]
  rfl

/-! ## The stepped operand -/

theorem stepOrWrap_state (c : Prop) [Decidable c] (r : Addr) (modulo around : Nat) (s : State) :
    ∃ n, (if c then (r, s) else wrapChoice modulo around s).2 = s.setFree n := by
  split
  · exact ⟨s.free, rfl⟩
  · exact ⟨_, rfl⟩

/-- A step of the operand takes at most a free choice. -/
theorem stepYbar_state (b : BitVec 3) (s : State) : ∃ n, (stepYbar b s).2 = s.setFree n := by
  unfold stepYbar
  simp only []
  split
  · exact ⟨s.free, rfl⟩
  all_goals exact stepOrWrap_state _ _ _ _ s

/-- The two values that U16 allows where a step leaves the width. -/
theorem wrapChoice_value {modulo around : Nat} (hm : modulo < 2 ^ 17) (ha : around < 2 ^ 17) (s : State) :
    (wrapChoice modulo around s).1.toNat = modulo ∨ (wrapChoice modulo around s).1.toNat = around := by
  unfold wrapChoice
  split
  · exact .inl (by rw [BitVec.toNat_ofNat, Nat.mod_eq_of_lt hm])
  · exact .inr (by rw [BitVec.toNat_ofNat, Nat.mod_eq_of_lt ha])

/-- A step up by d within m bits, and past the top. -/
theorem stepUp_value {m r d : Nat} (hm : m = 15 ∨ m = 17) (hr : r < 2 ^ m) (hd : d < 2 ^ m) {x : Addr}
    (hx : x = (if r + d < 2 ^ m then (BitVec.ofNat 17 (r + d), s) else wrapChoice ((r + d) % 2 ^ m) (endAround m (r + d)) s).1) :
    (r + d < 2 ^ m → x.toNat = r + d) ∧
      (2 ^ m ≤ r + d → x.toNat = (r + d) % 2 ^ m ∨ x.toNat = (r + d) % 2 ^ m + (r + d) / 2 ^ m) := by
  have hle : 2 ^ m ≤ 2 ^ 17 := by rcases hm with rfl | rfl <;> decide
  subst hx
  refine ⟨fun h => ?_, fun h => ?_⟩
  · rw [if_pos h, BitVec.toNat_ofNat, Nat.mod_eq_of_lt (h.trans_le hle)]
  · have hmod : (r + d) % 2 ^ m = r + d - 2 ^ m := by rw [Nat.mod_eq_sub_mod h, Nat.mod_eq_of_lt (by omega)]
    have hdiv : (r + d) / 2 ^ m = 1 := Nat.div_eq_of_lt_le (by omega) (by omega)
    have haround : endAround m (r + d) = (r + d) % 2 ^ m + (r + d) / 2 ^ m := rfl
    rw [if_neg (by omega)]
    exact haround ▸ wrapChoice_value (by omega) (by omega) s

/-- The step of the operand that j asks for (R433). -/
theorem stepYbar_value {m r d j : Nat} {x : Addr} (hm : m = ybarWidth b s) (hr : r = s.rep.ybar.toNat % 2 ^ m) (hd : d = (bRead b s).toNat)
    (hj : j = s.rep.j.toNat % 4) (hx : x = (stepYbar b s).1) :
    (j = 0 → x.toNat = r) ∧
      (j = 1 → (r + 1 < 2 ^ m → x.toNat = r + 1) ∧ (2 ^ m ≤ r + 1 → x.toNat = 0 ∨ x.toNat = 1)) ∧
      (j = 2 → (0 < r → x.toNat = r - 1) ∧ (r = 0 → x.toNat = 2 ^ m - 1 ∨ x.toNat = 2 ^ m - 2)) ∧
      (j = 3 → (r + d < 2 ^ m → x.toNat = r + d) ∧
        (2 ^ m ≤ r + d → x.toNat = (r + d) % 2 ^ m ∨ x.toNat = (r + d) % 2 ^ m + (r + d) / 2 ^ m)) := by
  have hwidth : m = 15 ∨ m = 17 := hm ▸ bWidth_cases (bView s) b
  have hle : 2 ≤ 2 ^ m ∧ 2 ^ m ≤ 2 ^ 17 := by rcases hwidth with h | h <;> rw [h] <;> decide
  have hrlt : r < 2 ^ m := hr ▸ Nat.mod_lt _ (by omega)
  have hdlt : d < 2 ^ m := by rw [hd, hm]; exact bReadIn_lt (bView s) b s
  have hcut : (cutTo m s.rep.ybar).toNat = r := (toNat_cutTo m _ hwidth).trans hr.symm
  have hj4 : j = (s.rep.j.setWidth 2).toNat := by rw [BitVec.toNat_setWidth]; exact hj
  unfold stepYbar at hx
  rw [← hm, ← hd] at hx
  simp only [hcut] at hx
  generalize s.rep.j.setWidth 2 = jw at hj4 hx
  have hcases : jw = 0#2 ∨ jw = 1#2 ∨ jw = 2#2 ∨ jw = 3#2 := by clear hj4 hx; revert jw; decide
  rcases hcases with rfl | rfl | rfl | rfl
  all_goals subst hj4
  case inl =>
    refine ⟨fun _ => ?_, nofun, nofun, nofun⟩
    have hsame : x = BitVec.ofNat 17 r := hx
    rw [hsame, BitVec.toNat_ofNat, Nat.mod_eq_of_lt (by omega)]
  case inr.inl =>
    obtain ⟨hfits, hwraps⟩ := stepUp_value hwidth hrlt (by omega : 1 < 2 ^ m) hx
    refine ⟨nofun, fun _ => ⟨hfits, fun h => ?_⟩, nofun, nofun⟩
    have htop : r + 1 = 2 ^ m := by omega
    rw [htop, Nat.mod_self, Nat.div_self (by omega)] at hwraps
    exact hwraps le_rfl
  case inr.inr.inl =>
    refine ⟨nofun, nofun, fun _ => ⟨fun h => ?_, fun h => ?_⟩, nofun⟩
    · rw [hx]
      simp only [if_pos h]
      rw [BitVec.toNat_ofNat, Nat.mod_eq_of_lt (by omega)]
    · rw [hx]
      simp only [if_neg (by omega : ¬ 0 < r)]
      exact wrapChoice_value (by omega) (by omega) s
  case inr.inr.inr => exact ⟨nofun, nofun, nofun, fun _ => stepUp_value hwidth hrlt hdlt hx⟩

/-! ## The end of an execution -/

/-- The count and the operand stepped (R439). -/
def steppedOn (b : BitVec 3) (u : State) : State :=
  (stepYbar b (countedDown u)).2.setRep { (stepYbar b (countedDown u)).2.rep with ybar := (stepYbar b (countedDown u)).1 }

/-- The sequence has ended. -/
def repeatEnded (s : State) : State := s.setRep { s.rep with active := false }

theorem steppedOn_eq (b : BitVec 3) (u : State) : ∃ n, steppedOn b u =
    ((countedDown u).setFree n).setRep { u.rep with ybar := (stepYbar b (countedDown u)).1 } := by
  obtain ⟨n, hn⟩ := stepYbar_state b (countedDown u)
  obtain ⟨e, w, hcounted⟩ := countedDown_eq u
  have hrep : (countedDown u).rep = u.rep := by rw [hcounted]; rfl
  refine ⟨n, ?_⟩
  rw [steppedOn, hn, State.setFree_rep, hrep]

/-- A satisfied skip condition ends the sequence where it does so (D33). -/
theorem afterRepeated_terminates (hpc : (steppedOn b u).pc ≠ p) (hcfg : (steppedOn b u).cfg.repeatSkip = .terminate) :
    afterRepeated p b u = repeatEnded (steppedOn b u) := by
  refine (if_pos hpc).trans ?_
  show (match (steppedOn b u).cfg.repeatSkip with
    | .terminate => repeatEnded (steppedOn b u)
    | .ignore => if repeatCountLeft ((steppedOn b u).setPc p) = 0 then _ else _) = _
  rw [hcfg]

/-- Otherwise the sequence ends where the count is 0. -/
theorem afterRepeated_counts (h : (steppedOn b u).pc = p ∨ (steppedOn b u).cfg.repeatSkip = .ignore) :
    afterRepeated p b u =
      if repeatCountLeft (steppedOn b u) = 0 then repeatEnded ((steppedOn b u).setPc p) else (steppedOn b u).setPc p := by
  by_cases hpc : (steppedOn b u).pc = p
  · refine (if_neg (not_not.2 hpc)).trans ?_
    rw [← hpc]
    rfl
  · refine (if_pos hpc).trans ?_
    show (match (steppedOn b u).cfg.repeatSkip with
      | .terminate => repeatEnded (steppedOn b u)
      | .ignore => if repeatCountLeft ((steppedOn b u).setPc p) = 0 then _ else _) = _
    rw [h.resolve_left hpc]
    rfl

/-- What an execution leaves but for P and the end of the sequence: the registers of u, B7 and the operand stepped. -/
def RegistersStepped (b : BitVec 3) (u t : State) : Prop :=
  t.a = u.a ∧ t.q = u.q ∧ t.ctl = u.ctl ∧ t.mem = u.mem ∧ t.rep.j = u.rep.j ∧ t.rep.ybar = (stepYbar b (countedDown u)).1 ∧
    SameIndex (countedDown u) t

theorem steppedOn_frame (b : BitVec 3) (u : State) : RegistersStepped b u (steppedOn b u) ∧ (steppedOn b u).pc = u.pc ∧
    (steppedOn b u).cfg = u.cfg ∧ (steppedOn b u).rep.active = u.rep.active ∧ repeatCountLeft (steppedOn b u) = repeatCountLeft u - 1 := by
  obtain ⟨n, hstepped⟩ := steppedOn_eq b u
  obtain ⟨e, w, hcounted⟩ := countedDown_eq u
  have hcount : repeatCountLeft (steppedOn b u) = repeatCountLeft u - 1 := by
    rw [← repeatCountLeft_countedDown, hstepped, hcounted]
    rfl
  rw [hstepped] at hcount ⊢
  have hindex : SameIndex (countedDown u) (((countedDown u).setFree n).setRep
    { u.rep with ybar := (stepYbar b (countedDown u)).1 }) := ⟨rfl, rfl⟩
  refine ⟨⟨?_, ?_, ?_, ?_, rfl, rfl, hindex⟩, ?_, ?_, rfl, hcount⟩
  all_goals
    rw [hcounted]
    rfl

/-- The registers after an execution, however it ends. -/
theorem afterRepeated_registersStepped (p : Addr) (b : BitVec 3) (u : State) : RegistersStepped b u (afterRepeated p b u) := by
  obtain ⟨hframe, -⟩ := steppedOn_frame b u
  by_cases h : (steppedOn b u).pc = p ∨ (steppedOn b u).cfg.repeatSkip = .ignore
  · rw [afterRepeated_counts h]
    split <;> exact hframe
  · obtain ⟨hpc, hcfg⟩ := not_or.1 h
    have hterm : (steppedOn b u).cfg.repeatSkip = .terminate := by
      generalize (steppedOn b u).cfg.repeatSkip = x at hcfg ⊢
      cases x with
      | terminate => rfl
      | ignore => exact absurd rfl hcfg
    rw [afterRepeated_terminates hpc hterm]
    exact hframe

/-- An index register is read by the control registers and the two sets. -/
theorem bRead_sameIndex (hctl : t.ctl = s.ctl) (h : SameIndex s t) : bRead b t = bRead b s := by
  have hview : bView t = bView s := by unfold bView govIfr; rw [hctl]
  rw [bRead, bRead, bReadIn, bReadIn, hview, bSetOf_kept h]

/-! ## The step -/

/-- The step of a CPU within a Repeat sequence, past its first execution. -/
theorem step_repeated (hin : s.inputs = []) (hrun : s.run = true) (hf : s.fetch = .program) (htime : timeoutDue s = false)
    (hdue : dueInterrupt s = none) (hrep : s.rep.active = true) (hfirst : s.rep.first = false) (hword : s.rep.word = some w)
    (hi : repeatFields (decode w) = some (b, y)) (hcount : repeatCountLeft s ≠ 0)
    (hexec : exec (decode w) (s.setOverlap []) = .next u) (hu : u.fetch = .program) :
    step s = .next (afterRepeated s.pc b u) := by
  simp only [step, hin, cycle, hrun, hf, htime, hdue, runNext, hrep, runRepeat, hword, hi, repeatOnce, hfirst, hcount, hexec, hu,
    Bool.not_true, Bool.false_eq_true, if_false, if_true, ne_eq, not_true]

end

/-- Settles O46: the step is the repeated instruction, then the steps of count and operand. -/
theorem repeatedExecutionSteps : Obligations.RepeatedExecutionSteps := by
  unfold Obligations.RepeatedExecutionSteps
  intro i b y s w u hin hrun hf htime hdue hrep hfirst hword hi hfields hcount hexec hu m r
  subst hi
  obtain ⟨-, hpc, hcfg, hactive, hleft⟩ := steppedOn_frame b u
  obtain ⟨ha, hq, hctl, hmem, hj, hybar, hindex⟩ := afterRepeated_registersStepped s.pc b u
  obtain ⟨e, v, hcounted⟩ := countedDown_eq u
  have hseven : (bSetOf (bView u) (afterRepeated s.pc b u)).b7 = repeatCountLeft u - 1 :=
    (congrArg BSet.b7 (bSetOf_kept hindex _)).trans (repeatCountLeft_countedDown u)
  have hwidth : m = ybarWidth b (countedDown u) := by rw [hcounted]; rfl
  have hrest : r = (countedDown u).rep.ybar.toNat % 2 ^ m := by rw [hcounted]; rfl
  have hjmod : u.rep.j.toNat % 4 = (countedDown u).rep.j.toNat % 4 := by rw [hcounted]; rfl
  have hread : (bRead b (afterRepeated s.pc b u)).toNat = (bRead b (countedDown u)).toNat := by
    have hctlCounted : u.ctl = (countedDown u).ctl := by rw [hcounted]; rfl
    exact congrArg BitVec.toNat (bRead_sameIndex (hctl.trans hctlCounted) hindex)
  refine ⟨_, step_repeated hin hrun hf htime hdue hrep hfirst hword hfields hcount hexec hu, ha, hq, hctl, hmem, hj, hseven,
    stepYbar_value hwidth hrest hread hjmod hybar, ?ends, ?goesOn⟩
  case ends =>
    rintro ⟨hskipped, hterm⟩ hsame
    rw [afterRepeated_terminates (hpc ▸ hskipped) (by rw [hcfg, hsame, hterm])]
    exact ⟨hpc, rfl⟩
  case goesOn =>
    intro h
    have hcounts := afterRepeated_counts (p := s.pc) (b := b) (u := u) (by
      rcases h with h | ⟨hignore, hsame⟩
      · exact .inl (hpc.trans h)
      · exact .inr (by rw [hcfg, hsame, hignore]))
    rw [hleft] at hcounts
    rw [hcounts]
    by_cases hzero : repeatCountLeft u - 1 = 0
    · rw [if_pos hzero, decide_eq_false (not_not.2 hzero), Bool.and_false]
      exact ⟨rfl, rfl⟩
    · rw [if_neg hzero, decide_eq_true hzero, Bool.and_true]
      exact ⟨rfl, hactive⟩

end Sys2Proof.Machine
end

section
/-! The transfers of the I/O logic (49_io.md R481 to R486). -/

namespace Sys2Proof.Machine

open Sys2Proof

section

variable {s t u : State} {c : Fin 24} {x : CondInt} {p : Bool} {loc a : Addr}

/-! ## What a transfer leaves -/

/-- Everything but storage, the signals, the pending requests and the channel itself is as before. -/
def TransferKept (c : Fin 24) (s t : State) : Prop :=
  t.a = s.a ∧ t.q = s.q ∧ t.pc = s.pc ∧ t.ctl = s.ctl ∧ SameIndex s t ∧ t.sel = s.sel ∧ t.run = s.run ∧ t.lockout = s.lockout ∧
    t.rep = s.rep ∧ t.fetch = s.fetch ∧ t.entryOpen = s.entryOpen ∧ t.inputs = s.inputs ∧ t.cfg = s.cfg ∧ t.clk = s.clk ∧
    t.panel = s.panel ∧ ∀ e, e ≠ c → t.chans[e] = s.chans[e]

theorem TransferKept.refl (c : Fin 24) (s : State) : TransferKept c s s := by simp [TransferKept, SameIndex]

theorem TransferKept.agentStore (h : TransferKept c s t) (a : Addr) (p : Part) (v : Word) : TransferKept c s (agentStore a p v t) := by
  simpa [TransferKept, SameIndex, Machine.agentStore, dropOverlap] using h

theorem TransferKept.putChan (h : TransferKept c s t) (v : Channel) : TransferKept c s (putChan c v t) := by
  obtain ⟨ha, hq, hpc, hctl, hindex, hsel, hrun, hlock, hrep, hfetch, hopen, hin, hcfg, hclk, hpanel, hchans⟩ := h
  exact ⟨ha, hq, hpc, hctl, hindex, hsel, hrun, hlock, hrep, hfetch, hopen, hin, hcfg, hclk, hpanel,
    fun e he => (chan_putChan_ne he v t).trans (hchans e he)⟩

theorem TransferKept.setOutputs (h : TransferKept c s t) (l : List Signal) : TransferKept c s (t.setOutputs l) := h

theorem TransferKept.request (h : TransferKept c s t) (x : CondInt) : TransferKept c s (request x t) := by
  rw [request_eq]
  exact h

/-! ## A request made on a condition -/

/-- The request of a monitor interrupt where it was asked for. -/
def requestIf (p : Bool) (x : CondInt) (s : State) : State := if p then request x s else s

theorem TransferKept.requestIf (h : TransferKept c s t) (p : Bool) (x : CondInt) : TransferKept c s (requestIf p x t) := by
  cases p
  · exact h
  · exact h.request x

theorem wordAt_requestIf (p : Bool) (x : CondInt) (u : State) (a : Addr) : wordAt (requestIf p x u) a = wordAt u a := by
  cases p
  · rfl
  · exact wordAt_request x u a

theorem requestIf_parity (p : Bool) (x : CondInt) (u : State) : (requestIf p x u).parity = u.parity := by
  cases p
  · rfl
  · exact request_parity x u

theorem requestIf_io (p : Bool) (x : CondInt) (u : State) :
    (requestIf p x u).outputs = u.outputs ∧ (requestIf p x u).chans = u.chans := by
  cases p
  · exact ⟨rfl, rfl⟩
  · rw [requestIf, if_pos rfl, request_eq]
    exact ⟨rfl, rfl⟩

/-- The pending requests after it. -/
theorem requestIf_pending {q : Prop} [Decidable q] (hq : q ↔ p = true) (hu : u.pending = s.pending) :
    if q then Requested x s (requestIf p x u) else (requestIf p x u).pending = s.pending := by
  split
  · rename_i h
    rw [hq.1 h]
    exact requested_request x hu
  · rename_i h
    rw [Bool.eq_false_of_not_eq_true (mt hq.2 h)]
    exact hu

/-! ## The buffer control word (R481) -/

/-- The BCW of the last word. -/
theorem bcwUpdate_done (w : Word) : (bcwUpdate w).done = true ↔ w.extractLsb' 18 12 = 1#12 := by
  rw [bcwUpdate, beq_iff_eq, sub_eq_zero]
  rfl

theorem bcwUpdate_done_and (w : Word) (q : Bool) :
    w.extractLsb' 18 12 = 1#12 ∧ q = true ↔ ((bcwUpdate w).done && q) = true := by
  rw [Bool.and_eq_true, bcwUpdate_done]

/-- A word, or the upper half of one, stored after the BCW has been written back. -/
theorem agentStore_after_bcw (hne : loc ≠ a) (part : Part) (v next : Word) (s : State) :
    wordAt (agentStore a part v (agentStore loc .whole next s)) a = mergePart part (wordAt s a) v ∧
      wordAt (agentStore a part v (agentStore loc .whole next s)) loc = next := by
  simp [wordAt_agentStore, hne, hne.symm, mergePart]

theorem agentStore_agentStore_kept (loc a : Addr) (part part' : Part) (v v' : Word) (s : State) :
    MemoryKeptBut [loc, a] s (agentStore a part v (agentStore loc part' v' s)) := by
  intro x hx
  obtain ⟨hloc, ha⟩ : x ≠ loc ∧ x ≠ a := by simpa using hx
  rw [wordAt_agentStore, if_neg ha.symm, wordAt_agentStore, if_neg hloc.symm]

/-! ## Input -/

/-- The monitor request of an input buffer's end (R482, R484). -/
def inputMonitor (mode : ChannelMode) (c : Fin 24) : CondInt :=
  match mode with
  | .isi => .inputMonitorIsi c
  | .esi => .inputMonitorEsi c

/-- An input transfer acknowledged: the word's acknowledge, and the channel deactivated with the last word. -/
def inputAcknowledged (c : Fin 24) (done : Bool) (t : State) : State :=
  (putChan c { chan t c with idr := false, inActive := !done && (chan t c).inActive } t).setOutputs (.inputAck c :: t.outputs)

theorem inputEnd_eq (c : Fin 24) (done : Bool) (s t : State) :
    inputEnd c done s t =
      requestIf (done && (chan s c).inMon) (inputMonitor (channelMode s c) c) (inputAcknowledged c done t) := by
  have hchan : chan (acknowledgeInput c t) c = { chan t c with idr := false } := chan_putChan c _ t
  unfold inputEnd
  cases done with
  | false => rfl
  | true =>
    have hoff : putChan c { chan (acknowledgeInput c t) c with inActive := false } (acknowledgeInput c t) = inputAcknowledged c true t := by
      rw [hchan]
      exact congrArg (fun r : State => r.setOutputs (.inputAck c :: t.outputs)) (putChan_putChan c _ _ t)
    simp only [hoff, Bool.true_and]
    rfl

/-- What an input transfer leaves, once its word has been stored in a state t. -/
theorem inputEnd_frame (w : Word) (ht : TransferKept c s t) (hchans : t.chans = s.chans) (hout : t.outputs = s.outputs)
    (hpending : t.pending = s.pending) {r : State} (hr : r = inputEnd c (bcwUpdate w).done s t) :
    (∀ x, wordAt r x = wordAt t x) ∧ r.outputs = .inputAck c :: s.outputs ∧ (r.chans[c]).idr = false ∧ TransferKept c s r ∧
      (w.extractLsb' 18 12 = 1#12 → (r.chans[c]).inActive = false) ∧
      (¬ w.extractLsb' 18 12 = 1#12 → (r.chans[c]).inActive = (s.chans[c]).inActive) ∧
      (if w.extractLsb' 18 12 = 1#12 ∧ (s.chans[c]).inMon = true then Requested (inputMonitor (channelMode s c) c) s r
        else r.pending = s.pending) := by
  have hsame : chan t c = s.chans[c] := by rw [chan, hchans]
  rw [inputEnd_eq] at hr
  obtain ⟨hrout, hrchans⟩ := requestIf_io ((bcwUpdate w).done && (chan s c).inMon) (inputMonitor (channelMode s c) c)
    (inputAcknowledged c (bcwUpdate w).done t)
  rw [← hr] at hrout hrchans
  have hchan : r.chans[c] = { s.chans[c] with idr := false, inActive := !(bcwUpdate w).done && (s.chans[c]).inActive } := by
    rw [hrchans, ← hsame]
    exact chan_putChan c _ t
  refine ⟨fun x => ?word, ?out, by rw [hchan], ?kept, fun h => ?last, fun h => ?more, ?asked⟩
  case word => rw [hr, wordAt_requestIf]; rfl
  case out => rw [hrout, ← hout]; rfl
  case kept => rw [hr]; exact ((ht.putChan _).setOutputs _).requestIf _ _
  case last => rw [hchan, (bcwUpdate_done w).2 h]; rfl
  case more => rw [hchan, Bool.eq_false_of_not_eq_true (mt (bcwUpdate_done w).1 h)]; rfl
  case asked =>
    rw [hr]
    exact requestIf_pending (bcwUpdate_done_and w _) hpending

theorem inputTransfer_isi (hloc : bcwLocation true c s = loc) (ha : (bcwUpdate (wordAt s loc)).addr = a) (hm : channelMode s c = .isi)
    (hi : installed s loc = true) (hb : wordBad s loc = false) (hd : installed s a = true) :
    inputTransfer c s = .next (inputEnd c (bcwUpdate (wordAt s loc)).done s
      (agentStore a .whole (chan s c).inLines (agentStore loc .whole (bcwUpdate (wordAt s loc)).next s))) := by
  subst hloc ha
  unfold inputTransfer inputEnd
  simp only [hm, hi, hb, hd, Bool.not_true, Bool.false_eq_true, if_false]
  split
  · split <;> rfl
  · rfl

/-- The state in which an ESI input transfer has stored its half-word. -/
theorem inputStored_eq (hloc : bcwLocation true c s = loc) (ha : (bcwUpdate (wordAt s loc)).addr = a) :
    inputStored c s =
      agentStore a .upper ((upperHalf (chan s c).inLines).setWidth 30) (agentStore loc .whole (bcwUpdate (wordAt s loc)).next s) := by
  subst hloc ha
  rfl

theorem mergePart_upperHalf (old v : Word) : mergePart .upper old ((upperHalf v).setWidth 30) = upperHalf v ++ lowerHalf old :=
  congrArg (fun x : Half => (x ++ lowerHalf old : BitVec 30)) (lowerHalf_setWidth (upperHalf v))

/-! ## Output -/

/-- What a write by another agent leaves besides storage. -/
theorem agentStore_io (a : Addr) (part : Part) (v : Word) (s : State) :
    (agentStore a part v s).outputs = s.outputs ∧ (agentStore a part v s).chans = s.chans ∧
      (agentStore a part v s).pending = s.pending := by
  simp [agentStore, dropOverlap]

/-- What the sending of a word leaves. -/
theorem sendWord_frame (x : Signal) (ht : TransferKept c s t) :
    TransferKept c s (sendWord x c t) ∧ (∀ a, wordAt (sendWord x c t) a = wordAt t a) ∧ (sendWord x c t).outputs = x :: t.outputs ∧
      (sendWord x c t).chans[c] = { t.chans[c] with odr := false } ∧ (sendWord x c t).pending = t.pending :=
  ⟨(ht.putChan _).setOutputs _, fun _ => rfl, rfl, chan_putChan c _ t, rfl⟩

/-- The state in which an output transfer has sent its word. -/
theorem outputSent_frame (hloc : bcwLocation false c s = loc) (ha : (bcwUpdate (wordAt s loc)).addr = a) (hne : loc ≠ a) :
    TransferKept c s (outputSent c s) ∧ wordAt (outputSent c s) loc = (bcwUpdate (wordAt s loc)).next ∧
      MemoryKeptBut [loc] s (outputSent c s) ∧ (outputSent c s).outputs = outputSignal c (wordAt s a) s :: s.outputs ∧
      (outputSent c s).chans[c] = { s.chans[c] with odr := false } ∧ (outputSent c s).pending = s.pending := by
  obtain ⟨hword, hother⟩ := agentStore_whole loc (bcwUpdate (wordAt s loc)).next s
  obtain ⟨hout, hchans, hpending⟩ := agentStore_io loc .whole (bcwUpdate (wordAt s loc)).next s
  have hkept := (TransferKept.refl c s).agentStore loc .whole (bcwUpdate (wordAt s loc)).next
  have hdata := hother a (by simpa using hne.symm)
  have hsent : outputSent c s =
      sendWord (outputSignal c (wordAt s a) s) c (agentStore loc .whole (bcwUpdate (wordAt s loc)).next s) := by
    rw [← hdata]
    subst hloc ha
    rfl
  generalize agentStore loc .whole (bcwUpdate (wordAt s loc)).next s = t at *
  obtain ⟨hkept', hwords, hout', hchan, hpending'⟩ := sendWord_frame (outputSignal c (wordAt s a) s) hkept
  rw [hsent]
  refine ⟨hkept', (hwords loc).trans hword, fun x hx => (hwords x).trans (hother x hx), ?_, ?_, hpending'.trans hpending⟩
  · rw [hout', hout]
  · rw [hchan, hchans]

/-- The last word of an ISI buffer waits for the next request (R483). -/
theorem outputEnd_isi (hm : channelMode s c = .isi) (done : Bool) (t : State) :
    outputEnd c done s t = if done then putChan c { chan t c with outDone := true } t else t := by
  simp only [outputEnd, hm]

/-- A channel flag written at the end of a buffer. -/
theorem putChan_frame (v : Channel) (ht : TransferKept c s t) :
    TransferKept c s (putChan c v t) ∧ (putChan c v t).chans[c] = v ∧ (putChan c v t).outputs = t.outputs ∧
      (putChan c v t).pending = t.pending ∧ ∀ x, wordAt (putChan c v t) x = wordAt t x :=
  ⟨ht.putChan v, chan_putChan c v t, rfl, rfl, fun _ => rfl⟩

/-- The state in which an ESI output buffer has ended: its location saved in the output BCR (R485). -/
def outputClosed (c : Fin 24) (s t : State) : State :=
  putChan c { chan t c with outActive := false } (agentStore (fixedAddr s (outputBcr c)) .lower (chan s c).inLines t)

/-- An ESI output buffer's end stores the location in the lower half of the output BCR. -/
theorem outputClosed_frame (ht : TransferKept c s t) (hr : fixedAddr s (outputBcr c) = a) :
    TransferKept c s (outputClosed c s t) ∧ (outputClosed c s t).chans[c] = { t.chans[c] with outActive := false } ∧
      (outputClosed c s t).outputs = t.outputs ∧ (outputClosed c s t).pending = t.pending ∧
      wordAt (outputClosed c s t) a = upperHalf (wordAt t a) ++ lowerHalf (s.chans[c]).inLines ∧
      MemoryKeptBut [a] t (outputClosed c s t) := by
  subst hr
  obtain ⟨hkept, hchan, hout, hpending, hwords⟩ := putChan_frame { chan t c with outActive := false }
    (ht.agentStore (fixedAddr s (outputBcr c)) .lower (chan s c).inLines)
  obtain ⟨hout', -, hpending'⟩ := agentStore_io (fixedAddr s (outputBcr c)) .lower (chan s c).inLines t
  refine ⟨hkept, hchan, hout.trans hout', hpending.trans hpending', ?_, fun x hx => ?_⟩
  · rw [outputClosed, hwords, wordAt_agentStore, if_pos rfl]
    rfl
  · rw [outputClosed, hwords, wordAt_agentStore, if_neg fun h => hx (List.mem_singleton.2 h.symm)]

theorem outputEnd_esi (hm : channelMode s c = .esi) (done : Bool) (t : State) :
    outputEnd c done s t =
      requestIf (done && (chan s c).outMon) (.outputMonitorEsi c) (if done then outputClosed c s t else t) := by
  simp only [outputEnd, hm]
  cases done <;> rfl

/-- An ESI output transfer, its word sent and the buffer ended with the last word, before the request (R485). -/
theorem esiOutput_frame {r : Addr} (hloc : bcwLocation false c s = loc) (ha : (bcwUpdate (wordAt s loc)).addr = a) (hne : loc ≠ a)
    (hr : fixedAddr s (outputBcr c) = r) (hner : r ≠ loc)
    (hu : u = if (bcwUpdate (wordAt s loc)).done then outputClosed c s (outputSent c s) else outputSent c s) :
    TransferKept c s u ∧ wordAt u loc = (bcwUpdate (wordAt s loc)).next ∧ u.outputs = outputSignal c (wordAt s a) s :: s.outputs ∧
      MemoryKeptBut [loc, r] s u ∧ (u.chans[c]).odr = false ∧ u.pending = s.pending ∧
      ((bcwUpdate (wordAt s loc)).done = true →
        (u.chans[c]).outActive = false ∧ wordAt u r = upperHalf (wordAt s r) ++ lowerHalf (s.chans[c]).inLines) ∧
      (¬ (bcwUpdate (wordAt s loc)).done = true → (u.chans[c]).outActive = (s.chans[c]).outActive ∧ wordAt u r = wordAt s r) := by
  obtain ⟨hkept, hbcw, hother, hout, hchan, hpending⟩ := outputSent_frame hloc ha hne
  have hold : wordAt (outputSent c s) r = wordAt s r := hother r (by simpa using hner)
  by_cases hdone : (bcwUpdate (wordAt s loc)).done = true
  · obtain ⟨hkept', hchan', hout', hpending', hsaved, hother'⟩ := outputClosed_frame hkept hr
    rw [if_pos hdone] at hu
    subst hu
    refine ⟨hkept', (hother' loc (by simpa using hner.symm)).trans hbcw, hout'.trans hout, fun x hx => ?_, ?_, hpending'.trans hpending,
      fun _ => ⟨by rw [hchan'], by rw [hsaved, hold]⟩, fun h => absurd hdone h⟩
    · obtain ⟨hxloc, hxr⟩ : x ≠ loc ∧ x ≠ r := by simpa using hx
      exact (hother' x (by simpa using hxr)).trans (hother x (by simpa using hxloc))
    · rw [hchan', hchan]
  · rw [if_neg hdone] at hu
    subst hu
    refine ⟨hkept, hbcw, hout, fun x hx => hother x ?_, by rw [hchan], hpending, fun h => absurd h hdone, fun _ => ⟨by rw [hchan], hold⟩⟩
    obtain ⟨hxloc, -⟩ : x ≠ loc ∧ x ≠ r := by simpa using hx
    simpa using hxloc

theorem outputTransfer_finish (hm : channelMode s c = .isi) (hd : (s.chans[c]).outDone = true) :
    outputTransfer c s = .next (requestIf (s.chans[c]).outMon (.outputMonitorIsi c)
      (putChan c { chan s c with outActive := false, outDone := false } s)) := by
  have hdone : (chan s c).outDone = true := hd
  unfold outputTransfer
  rw [hm, hdone]
  rfl

end

/-- Settles O47: the BCW written back, the word moved, and the end of the buffer. -/
theorem isiTransfers : Obligations.IsiTransfers := by
  unfold Obligations.IsiTransfers
  intro c s hm inR outR next last asked rest
  have hinR : bcwLocation true c s = inR := by rw [bcwLocation_input, hm]; rfl
  have houtR : bcwLocation false c s = outR := by rw [bcwLocation_output, hm]; rfl
  have hrest : ∀ t, TransferKept c s t → rest t := by
    rintro t ⟨ha, hq, hpc, hctl, hindex, hsel, hrun, hlock, hrep, hfetch, -, -, -, -, -, hchans⟩
    exact ⟨ha, hq, hpc, hctl, hindex, hsel, hrun, hlock, hrep, hfetch, hchans⟩
  refine ⟨?input, ?output, ?finish⟩
  case input =>
    intro w a hi hb hd
    obtain ⟨houts, hchans, hpending⟩ := agentStore_io a .whole (chan s c).inLines (agentStore inR .whole (bcwUpdate w).next s)
    obtain ⟨houts', hchans', hpending'⟩ := agentStore_io inR .whole (bcwUpdate w).next s
    have hkept := ((TransferKept.refl c s).agentStore inR .whole (bcwUpdate w).next).agentStore a .whole (chan s c).inLines
    obtain ⟨hdata, -⟩ := agentStore_whole a (chan s c).inLines (agentStore inR .whole (bcwUpdate w).next s)
    obtain ⟨hwords, hout, hidr, hall, hlast, hmore, hasked⟩ := inputEnd_frame w hkept (hchans.trans hchans') (houts.trans houts')
      (hpending.trans hpending') rfl
    rw [hm] at hasked
    refine ⟨_, inputTransfer_isi hinR rfl hm hi hb hd, (hwords a).trans hdata, fun hne => ?_, fun x hx => ?_, hout, hidr, hlast, hmore,
      hasked, hrest _ hall⟩
    · obtain ⟨-, hbcw⟩ := agentStore_after_bcw hne .whole (chan s c).inLines (bcwUpdate w).next s
      exact (hwords inR).trans hbcw
    · exact (hwords x).trans (agentStore_agentStore_kept inR a .whole .whole _ _ s x hx)
  case output =>
    intro w a hdone hi hb hd hbad hne
    obtain ⟨hkept, hbcw, hother, hout, hchan, hpending⟩ := outputSent_frame (a := a) houtR rfl hne
    have hsent := outputTransfer_sent (a := a) houtR rfl (fun _ => hdone) hi hb hd hne hi
    rw [if_neg (ne_true_of_eq_false hbad), outputEnd_isi hm] at hsent
    have hsignal : outputSignal c (wordAt s a) s =
        if (s.chans[c]).efActive then .externalFunction c (wordAt s a) else .outputAck c (wordAt s a) := by
      rw [outputSignal, hm]
      rfl
    rw [hsignal] at hout
    by_cases hlast : last w
    · obtain ⟨hkept', hchan', hout', hpending', hwords⟩ := putChan_frame { chan (outputSent c s) c with outDone := true } hkept
      rw [if_pos ((bcwUpdate_done w).2 hlast)] at hsent
      have hodr : (chan (outputSent c s) c).odr = false := congrArg Channel.odr hchan
      have hactive : (chan (outputSent c s) c).outActive = (s.chans[c]).outActive := by rw [chan, hchan]
      refine ⟨_, hsent, (hwords outR).trans hbcw, fun x hx => (hwords x).trans (hother x hx), hout'.trans hout, ?_, ?_, ?_,
        hpending'.trans hpending, hrest _ hkept'⟩
      all_goals rw [hchan']
      · exact hodr
      · exact hactive
      · exact iff_of_true rfl hlast
    · rw [if_neg (mt (bcwUpdate_done w).1 hlast)] at hsent
      refine ⟨_, hsent, hbcw, hother, hout, ?_, ?_, ?_, hpending, hrest _ hkept⟩
      all_goals rw [hchan]
      exact iff_of_false (ne_true_of_eq_false hdone) hlast
  case finish =>
    intro hd
    obtain ⟨hout, hchans⟩ := requestIf_io (s.chans[c]).outMon (.outputMonitorIsi c)
      (putChan c { chan s c with outActive := false, outDone := false } s)
    have hchan : (requestIf (s.chans[c]).outMon (.outputMonitorIsi c)
        (putChan c { chan s c with outActive := false, outDone := false } s)).chans[c] =
          { s.chans[c] with outActive := false, outDone := false } := by
      rw [hchans]
      exact chan_putChan c _ s
    exact ⟨_, outputTransfer_finish hm hd, by rw [hchan], by rw [hchan], ⟨fun x => wordAt_requestIf _ _ _ x, requestIf_parity _ _ _⟩, hout,
      requestIf_pending Iff.rfl rfl, hrest _ (((TransferKept.refl c s).putChan _).requestIf _ _)⟩

/-- Settles O48: the same at the location the device names, which an output buffer's end saves. -/
theorem esiTransfers : Obligations.EsiTransfers := by
  unfold Obligations.EsiTransfers
  intro c s hm lines loc outR w a next last asked rest hi hb hd hbad hne
  have hin : bcwLocation true c s = loc := by rw [bcwLocation_input, hm]; rfl
  have hout : bcwLocation false c s = loc := by rw [bcwLocation_output, hm]; rfl
  refine ⟨?input, fun hr hner => ?output⟩
  case input =>
    have hgood : halfBad s a false = false := by
      rw [wordBad, Bool.or_eq_false_iff] at hbad
      exact hbad.1
    have hsent := inputTransfer_stored (a := a) hin rfl hm hi hb hd hne
    rw [if_neg (ne_true_of_eq_false hgood), inputStored_eq (a := a) hin rfl] at hsent
    obtain ⟨houts, hchans, hpending⟩ := agentStore_io a .upper ((upperHalf (chan s c).inLines).setWidth 30)
      (agentStore loc .whole (bcwUpdate w).next s)
    obtain ⟨houts', hchans', hpending'⟩ := agentStore_io loc .whole (bcwUpdate w).next s
    have hkept := ((TransferKept.refl c s).agentStore loc .whole (bcwUpdate w).next).agentStore a .upper
      ((upperHalf (chan s c).inLines).setWidth 30)
    obtain ⟨hdata, hbcw⟩ := agentStore_after_bcw hne .upper ((upperHalf (chan s c).inLines).setWidth 30) (bcwUpdate w).next s
    obtain ⟨hwords, hack, hidr, hall, hlast, hmore, hasked⟩ := inputEnd_frame w hkept (hchans.trans hchans') (houts.trans houts')
      (hpending.trans hpending') rfl
    rw [hm] at hasked
    refine ⟨_, hsent, (hwords a).trans (hdata.trans (mergePart_upperHalf _ _)), (hwords loc).trans hbcw, fun x hx => ?_, hack, hidr, hall,
      hlast, hmore, hasked⟩
    exact (hwords x).trans (agentStore_agentStore_kept loc a .upper .whole _ _ s x hx)
  case output =>
    obtain ⟨hkept, hbcw, hsignals, hother, hodr, hpending, hlast, hmore⟩ := esiOutput_frame (a := a) (r := outR) hout rfl hne rfl hner rfl
    have hsent := outputTransfer_sent (a := a) hout rfl (fun h => nomatch hm.symm.trans h) hi hb hd hne hr
    rw [if_neg (ne_true_of_eq_false hbad), outputEnd_esi hm] at hsent
    have hsignal : outputSignal c (wordAt s a) s = .outputAck c (wordAt s a) := by rw [outputSignal, hm]
    rw [hsignal] at hsignals
    obtain ⟨hio, hchans⟩ := requestIf_io ((bcwUpdate w).done && (chan s c).outMon) (.outputMonitorEsi c)
      (if (bcwUpdate w).done then outputClosed c s (outputSent c s) else outputSent c s)
    have hwords := wordAt_requestIf ((bcwUpdate w).done && (chan s c).outMon) (.outputMonitorEsi c)
      (if (bcwUpdate w).done then outputClosed c s (outputSent c s) else outputSent c s)
    rw [← hchans] at hodr hlast hmore
    refine ⟨_, hsent, (hwords loc).trans hbcw, hio.trans hsignals, fun x hx => (hwords x).trans (hother x hx), hodr,
      hkept.requestIf _ _, fun h => ?_, fun h => ?_, requestIf_pending (bcwUpdate_done_and w _) hpending⟩
    · obtain ⟨hoff, hsaved⟩ := hlast ((bcwUpdate_done w).2 h)
      exact ⟨hoff, (hwords outR).trans hsaved⟩
    · obtain ⟨hactive, hsame⟩ := hmore (mt (bcwUpdate_done w).1 h)
      exact ⟨hactive, (hwords outR).trans hsame⟩

end Sys2Proof.Machine
end
